-- ==== Sys2Proof/Word.lean ====
section
/-! DEFINITION. The fixed widths of SPIHD (R7, R11): bytes, host addresses, lengths, operation words, and the five-byte
string every header is (R100). -/

namespace Sys2Proof

/-- A byte is 8 bits (R11). -/
abbrev Byte := BitVec 8

/-- A host-memory byte address, `AW = 32` bits (R7, D2). DESIGN CHOICE of the spec, log 18. -/
abbrev Addr := BitVec 32

/-- A length or a byte counter, `LW = 16` bits (R7, D3). DESIGN CHOICE of the spec, log 18. -/
abbrev Len := BitVec 16

/-- An operation word of format `OPW`, 64 bits (R101). -/
abbrev OpWord := BitVec 64

/-- Five bytes, index 0 first: a header, `HDR_LEN = 5` (R6, R11, R37). -/
structure Hdr5 where
  b0 : Byte
  b1 : Byte
  b2 : Byte
  b3 : Byte
  b4 : Byte
deriving DecidableEq, Repr

end Sys2Proof
end

