-- ==== Sys2Proof/Config.lean ====
section
/-! DEFINITION. What an implementation fixes (R6 to R9) and the free values: opaque constants, of which nothing can be
proved but what holds for every value. The protocol constants of R8 are not here: they stand in `State.par`, so that a
statement about every state quantifies over them (log 5). -/

namespace Sys2Proof.Config

/-- `HDR_LEN = 5` (R6). -/
def hdrLen : Len := 5

/-- One past the highest host address, `2^AW` (R7). -/
def addrSpace : Nat := 2 ^ 32

/-- `T_CS_HIGH_MIN`, the minimum chip-select released time (R9, P5): open, read by no rule (R350). Log 14. -/
opaque tCsHighMin : Nat

/-- `T_POST_HDR`, the post-header delay (R9, P6): open, read by no rule. Log 14. -/
opaque tPostHdr : Nat

/-- `T_RX_NOTIFY_DELAY`, the delay before the receive notification (R9, P7): open, read by no rule. Log 14. -/
opaque tRxNotifyDelay : Nat

/-- `T_SEQ_TIMEOUT`, the duration of the one-shot timeout (R9, P8): open, read by no rule (R247, R350). Log 14. -/
opaque tSeqTimeout : Nat

/-- The byte that the `n`-th draw finds at a host address nothing has written (R75, U9: unspecified, "must not pick a
fixed value"). A free value, log 6. -/
opaque unwrittenByte : Nat → Byte

/-- What a pointer advanced past the top of the address space holds, as a function of the two operands: the sum does not
fit in `AW` bits, R156 says that no such carry occurs, and no rule states a result (R76). A free value, log 28. -/
opaque sumPastTop : Addr → Len → Addr

/-- The byte the coprocessor shifts out at the `n`-th draw, where a header exchange is given by the master's own five
bytes (R299: unconstrained). A free value, log 8. -/
opaque coprocByte : Nat → Byte

end Sys2Proof.Config
end

