-- ==== Sys2Proof/Syntax.lean ====
section
/-! DEFINITION. The alphabet of steps: one constructor of `Instr` per row of spec/opcode_table.json (eleven operations,
R103, and four header formats, R106 to R108), and the undecoded symbols a decoder reads. -/

namespace Sys2Proof

/-- The direction of a sequence, `d` in the rules: `Tx` or `Rx` (R150, R171, R245). Also the two vote ids (R32). -/
inductive Way where
  | tx
  | rx
deriving DecidableEq, Repr

/-- The four header formats (R100). No bit of a header string says which one it is: the direction of the sequence
(R114) and the sender select it. -/
inductive HdrFormat where
  | rdRsp   -- received during a read-header exchange (R106)
  | wrRsp   -- received during a write-header exchange (R107)
  | rdCmd   -- sent by the master during a read-header exchange (R108)
  | wrCmd   -- sent by the master during a write-header exchange (R108)
deriving DecidableEq, Repr

/-- What a step can be. The eleven operations of R103 with their operands (R102), and the four header formats, each the
whole exchange of five byte pairs of which it is one side (log 7). -/
inductive Instr where
  | init (mode : Byte)                                       -- R201
  | send (buf : Addr) (len : Len)                            -- R202
  | evtreq (buf : Addr) (len : Len)                          -- R204
  | rdyirq                                                   -- R230
  | txdone                                                   -- R240
  | rxdone                                                   -- R232
  | timeout                                                  -- R244
  | xchg (miso : Byte)                                       -- R175
  | rdylvl (level : Bool)                                    -- R134
  | tmrexp                                                   -- R247
  | reset                                                    -- R200
  | hdrRdRsp (state rsv1 rsv2 : Byte) (count : Len)          -- R106
  | hdrWrRsp (state : Byte) (count : Len) (rsv3 rsv4 : Byte) -- R107
  | hdrRdCmd (tmpl : Hdr5)                                   -- R108
  | hdrWrCmd (tmpl : Hdr5)                                   -- R108
deriving DecidableEq, Repr

/-- One undecoded symbol: an operation word (R101), or a header string, any number of bytes long, with the format the
context gives it (R114). -/
inductive Symbol where
  | op (w : OpWord)
  | header (f : HdrFormat) (bytes : List Byte)
deriving DecidableEq, Repr

end Sys2Proof
end

