-- ==== Sys2Proof/WellFormed.lean ====
section
/-! DEFINITION. The operand constraints that the bit pattern does not express (R104). An instruction that fails one still
decodes; it is refused when it is executed (R202, R204). Every other operand accepts every value (R104, R111). -/

namespace Sys2Proof

/-- `len >= 1` (R104). -/
def lenOk (len : Len) : Bool := len != 0

/-- `buf + len <= 2^AW`, on the exact sum (R104, R76). -/
def bufferOk (buf : Addr) (len : Len) : Bool := decide (buf.toNat + len.toNat ≤ Config.addrSpace)

/-- The constraints of R104, per instruction. -/
def Instr.wf : Instr → Bool
  | .init _ => true
  | .send buf len => lenOk len && bufferOk buf len
  | .evtreq buf len => lenOk len && bufferOk buf len
  | .rdyirq => true
  | .txdone => true
  | .rxdone => true
  | .timeout => true
  | .xchg _ => true
  | .rdylvl _ => true
  | .tmrexp => true
  | .reset => true
  | .hdrRdRsp _ _ _ _ => true
  | .hdrWrRsp _ _ _ _ => true
  | .hdrRdCmd _ => true
  | .hdrWrCmd _ => true

end Sys2Proof
end

