-- ==== Sys2Proof/Decode.lean ====
section
/-! DEFINITION. The decoder of operation words (R101 to R105) and header strings (R106 to R108), total on every symbol
and rejecting by name; after it the encoder, written from the same tables, and the opcode table's own rows of match and
mask, against which the decoder is stated to agree. -/

namespace Sys2Proof

/-- Why a symbol is no instruction (R105). Each is the refusal `InvalidWord` when a step meets it. -/
inductive DecodeError where
  | reservedOp            -- `op` is 0, 4, 5, 6 or 7
  | z1NotZero             -- `W[59:56]` is not 0
  | unusedFieldNotZero    -- a bit is set in a field the operation does not use
  | headerLength          -- a header string that is not five bytes long (R100)
deriving DecidableEq, Repr

/-! ### Fields of the operation word (R101) -/

/-- `W[63:60]`. -/
def fieldOp (w : OpWord) : BitVec 4 := w.extractLsb' 60 4
/-- `W[59:56]`. -/
def fieldZ1 (w : OpWord) : BitVec 4 := w.extractLsb' 56 4
/-- `W[55:48]`. -/
def fieldMode (w : OpWord) : Byte := w.extractLsb' 48 8
/-- `W[47:32]`. -/
def fieldLen (w : OpWord) : Len := w.extractLsb' 32 16
/-- `W[31:0]`. -/
def fieldBuf (w : OpWord) : Addr := w.extractLsb' 0 32

/-- An instruction whose unused fields must be 0 (R105). -/
def requireZero (unusedAreZero : Bool) (i : Instr) : Except DecodeError Instr :=
  if unusedAreZero then .ok i else .error .unusedFieldNotZero

/-- The operation map (R103), `op` given as a number. -/
def decodeOp (op : Nat) (mode : Byte) (len : Len) (buf : Addr) : Except DecodeError Instr :=
  match op with
  | 0x1 => requireZero (len == 0 && buf == 0) (.init mode)
  | 0x2 => requireZero (mode == 0) (.send buf len)
  | 0x3 => requireZero (mode == 0) (.evtreq buf len)
  | 0x8 => requireZero (mode == 0 && len == 0 && buf == 0) .rdyirq
  | 0x9 => requireZero (mode == 0 && len == 0 && buf == 0) .txdone
  | 0xA => requireZero (mode == 0 && len == 0 && buf == 0) .rxdone
  | 0xB => requireZero (mode == 0 && len == 0 && buf == 0) .timeout
  | 0xC => requireZero (mode == 0 && len == 0 && buf.extractLsb' 8 24 == 0) (.xchg (buf.extractLsb' 0 8))
  | 0xD => requireZero (mode == 0 && len == 0 && buf.extractLsb' 1 31 == 0) (.rdylvl (buf.getLsbD 0))
  | 0xE => requireZero (mode == 0 && len == 0 && buf == 0) .tmrexp
  | 0xF => requireZero (mode == 0 && len == 0 && buf == 0) .reset
  | _ => .error .reservedOp

/-- An operation word (R101, R105). -/
def decodeWord (w : OpWord) : Except DecodeError Instr :=
  if fieldZ1 w = 0 then decodeOp (fieldOp w).toNat (fieldMode w) (fieldLen w) (fieldBuf w)
  else .error .z1NotZero

/-! ### Header strings -/

/-- Little-endian assembly of a header's count, `lo + 256 * hi` (R71, R110). -/
def leCount (lo hi : Byte) : Len := lo.setWidth 16 + 256 * hi.setWidth 16

/-- The low byte of a count. -/
def countLo (count : Len) : Byte := count.extractLsb' 0 8
/-- The high byte of a count. -/
def countHi (count : Len) : Byte := count.extractLsb' 8 8

/-- Five bytes with the format's layout (R106, R107, R108). -/
def decodeHdr (f : HdrFormat) (h : Hdr5) : Instr :=
  match f with
  | .rdRsp => .hdrRdRsp h.b0 h.b1 h.b2 (leCount h.b3 h.b4)
  | .wrRsp => .hdrWrRsp h.b0 (leCount h.b1 h.b2) h.b3 h.b4
  | .rdCmd => .hdrRdCmd h
  | .wrCmd => .hdrWrCmd h

/-- A header string is exactly five bytes (R100). -/
def decodeHeader (f : HdrFormat) (bytes : List Byte) : Except DecodeError Instr :=
  match bytes with
  | [b0, b1, b2, b3, b4] => .ok (decodeHdr f ⟨b0, b1, b2, b3, b4⟩)
  | _ => .error .headerLength

/-- The decoder, total on every symbol. -/
def decode (x : Symbol) : Except DecodeError Instr :=
  match x with
  | .op w => decodeWord w
  | .header f bytes => decodeHeader f bytes

/-! ### Encoder -/

/-- The layout of R101, most significant field first; `z1 = 0`. -/
def opWord (op : BitVec 4) (mode : Byte) (len : Len) (buf : Addr) : OpWord :=
  op ++ (0#4) ++ mode ++ len ++ buf

/-- The five bytes of a read-header response (R106). -/
def rdRspBytes (state rsv1 rsv2 : Byte) (count : Len) : Hdr5 := ⟨state, rsv1, rsv2, countLo count, countHi count⟩
/-- The five bytes of a write-header response (R107). -/
def wrRspBytes (state : Byte) (count : Len) (rsv3 rsv4 : Byte) : Hdr5 := ⟨state, countLo count, countHi count, rsv3, rsv4⟩

/-- Five bytes as a string, byte 0 first (R100). -/
def hdrList (h : Hdr5) : List Byte := [h.b0, h.b1, h.b2, h.b3, h.b4]

/-- The symbol of an instruction (R101, R103, R106 to R108). -/
def encode (i : Instr) : Symbol :=
  match i with
  | .init mode => .op (opWord 0x1 mode 0 0)
  | .send buf len => .op (opWord 0x2 0 len buf)
  | .evtreq buf len => .op (opWord 0x3 0 len buf)
  | .rdyirq => .op (opWord 0x8 0 0 0)
  | .txdone => .op (opWord 0x9 0 0 0)
  | .rxdone => .op (opWord 0xA 0 0 0)
  | .timeout => .op (opWord 0xB 0 0 0)
  | .xchg miso => .op (opWord 0xC 0 0 (miso.setWidth 32))
  | .rdylvl level => .op (opWord 0xD 0 0 (if level then 1 else 0))
  | .tmrexp => .op (opWord 0xE 0 0 0)
  | .reset => .op (opWord 0xF 0 0 0)
  | .hdrRdRsp state rsv1 rsv2 count => .header .rdRsp (hdrList (rdRspBytes state rsv1 rsv2 count))
  | .hdrWrRsp state count rsv3 rsv4 => .header .wrRsp (hdrList (wrRspBytes state count rsv3 rsv4))
  | .hdrRdCmd tmpl => .header .rdCmd (hdrList tmpl)
  | .hdrWrCmd tmpl => .header .wrCmd (hdrList tmpl)

/-! ### The opcode table's own rows -/

/-- A row of spec/opcode_table.json with a match and a mask: the word is of the row when `w &&& mask = pattern`. -/
structure OpRow where
  pattern : OpWord
  mask : OpWord
deriving DecidableEq, Repr

/-- The eleven rows with a match and a mask, in the table's order. -/
def opTable : List OpRow :=
  [ ⟨0x1000000000000000, 0xFF00FFFFFFFFFFFF⟩,   -- INIT
    ⟨0x2000000000000000, 0xFFFF000000000000⟩,   -- SEND
    ⟨0x3000000000000000, 0xFFFF000000000000⟩,   -- EVTREQ
    ⟨0x8000000000000000, 0xFFFFFFFFFFFFFFFF⟩,   -- RDYIRQ
    ⟨0x9000000000000000, 0xFFFFFFFFFFFFFFFF⟩,   -- TXDONE
    ⟨0xA000000000000000, 0xFFFFFFFFFFFFFFFF⟩,   -- RXDONE
    ⟨0xB000000000000000, 0xFFFFFFFFFFFFFFFF⟩,   -- TIMEOUT
    ⟨0xC000000000000000, 0xFFFFFFFFFFFFFF00⟩,   -- XCHG
    ⟨0xD000000000000000, 0xFFFFFFFFFFFFFFFE⟩,   -- RDYLVL
    ⟨0xE000000000000000, 0xFFFFFFFFFFFFFFFF⟩,   -- TMREXP
    ⟨0xF000000000000000, 0xFFFFFFFFFFFFFFFF⟩ ]  -- RESET

/-- Whether a word is of a row. -/
def OpRow.covers (r : OpRow) (w : OpWord) : Bool := w &&& r.mask == r.pattern

/-! ### The host's probe -/

/-- The symbol of a row whose bits are `w`, `nbits` long. A 64-bit row is an operation word. A 40-bit row is a header
string, byte 0 in bits 39..32 as the table writes it; no bit of it names its format, so the probe reads it as the first
of the four, `HDR_RD_RSP` (log 9). -/
def tableSymbol (nbits w : Nat) : Symbol :=
  if nbits = 40 then
    let v := BitVec.ofNat 40 w
    .header .rdRsp [v.extractLsb' 32 8, v.extractLsb' 24 8, v.extractLsb' 16 8, v.extractLsb' 8 8, v.extractLsb' 0 8]
  else .op (BitVec.ofNat 64 w)

/-- What the decoder reads from an instruction whose bits are `w`. -/
def decodeTableWord (nbits w : Nat) : Option Instr :=
  match decode (tableSymbol nbits w) with
  | .ok i => some i
  | .error _ => none

end Sys2Proof
end

