-- ==== Sys2Proof/Machine/State.lean ====
section
/-! DEFINITION. The state of SPIHD (10_state.md), its reset value (R43, R330), and the reasons a step stops. Plain data
throughout. Fields carry the spec's names in lower case. -/

namespace Sys2Proof.Machine

/-- `BUS`: whether a chip-select session is open (R21). -/
inductive Bus where
  | available
  | busy
deriving DecidableEq, Repr

/-- `DIR`: which sequence is active (R22). -/
inductive Dir where
  | none
  | tx
  | rx
deriving DecidableEq, Repr

/-- `RXEV`: what the next completed burst means (R23). -/
inductive RxEv where
  | checkHeaderForReceive
  | checkHeaderForTransmit
  | continuePayload
  | endOfTransfer
deriving DecidableEq, Repr

/-- The eight phases (R42). -/
inductive Phase where
  | idle
  | txHdr
  | txPayMore
  | txPayLast
  | rxHdr
  | rxPayMore
  | rxPayLast
  | rxWaitBuf
deriving DecidableEq, Repr

/-- The transmit context `TX` (R25). -/
structure TxCtx where
  ptr : Addr
  rem : Len
  burst : Len
  cont : Bool
  valid : Bool
deriving DecidableEq, Repr

/-- The receive context `RX` (R26). -/
structure RxCtx where
  ptr : Addr
  size : Len
  rem : Len
  burst : Len
  cont : Bool
  valid : Bool
deriving DecidableEq, Repr

/-- The pending slot `PEND` (R27). -/
structure Pending where
  valid : Bool
  ptr : Addr
  len : Len
deriving DecidableEq, Repr

/-- The source of the transmit channel (R34). -/
inductive TxSel where
  | tmplRd
  | tmplWr
  | dummy
  | mem
deriving DecidableEq, Repr

/-- The destination of the receive channel (R35). -/
inductive RxSel where
  | hdr
  | sink
  | mem
deriving DecidableEq, Repr

/-- The transmit DMA channel `TXCH` (R34). -/
structure TxChan where
  sel : TxSel
  addr : Addr
  cnt : Len
  minc : Bool
  en : Bool
deriving DecidableEq, Repr

/-- The receive DMA channel `RXCH` (R35). -/
structure RxChan where
  sel : RxSel
  addr : Addr
  cnt : Len
  minc : Bool
  en : Bool
deriving DecidableEq, Repr

/-- The protocol constants of R8: parameters, not state of the machine (R44). They are carried in State as plain data so
that a statement about every state quantifies over them; no operation writes them (log 5). -/
structure Params where
  readyCode : Byte
  tmplRd : Hdr5
  tmplWr : Hdr5
  dummyTx : Byte
deriving DecidableEq, Repr

/-- The effects, the observable outputs of a step (R14). -/
inductive Effect where
  | cs (asserted : Bool)
  | wire (mosi miso : Byte)
  | lpmRequest (d : Way)
  | lpmAllow (d : Way)
  | tmrStart
  | tmrStop
  | notifyRx (n : Len) (more : Bool)
  | notifyTx
  | notifyTimeout
deriving DecidableEq, Repr

/-- What the agents do next (R20, log 1). -/
inductive Input where
  | sym (x : Symbol)                  -- an operation word or a header string
  | hostStore (a : Addr) (v : Byte)   -- the host stores a byte into its own memory (R40, R83, log 12)
  | busError                          -- a DMA transfer error or an SPI error (U6, log 13)
deriving DecidableEq, Repr

/-- Host memory `MEM` (R40): the bytes something has written, as (address, byte) pairs in strictly rising address order.
An unlisted address holds no known byte (R75, log 20). -/
abbrev Memory := List Host.Cell

/-- The whole state `S` (10_state.md). -/
structure State where
  -- control and status (R28)
  inited : Bool
  mode : Byte
  -- the sequencer (R21 to R24)
  bus : Bus
  dir : Dir
  rxev : RxEv
  rxwait : Bool
  -- the transfer contexts and the pending slot (R25 to R27)
  tx : TxCtx
  rx : RxCtx
  pend : Pending
  -- lines (R29 to R31)
  cs : Bool
  rdy : Bool
  rdypend : Bool
  rdyie : Bool
  -- no-sleep votes (R32)
  holdTx : Bool
  holdRx : Bool
  -- timer (R33)
  tmrarm : Bool
  topend : Bool
  toflag : Bool
  -- DMA channels and completion latches (R34 to R36)
  txch : TxChan
  rxch : RxChan
  tctx : Bool
  tcrx : Bool
  -- internal buffers and hidden state (R37, R39, R40)
  hdrRx : Hdr5
  rxres : Nat
  mem : Memory
  -- the parameters (R8, log 5)
  par : Params
  -- the model's own: the output trace (R14, log 4), the agents' choices (log 1), the number of free draws (log 6)
  trace : List Effect
  input : List Input
  draws : Nat
deriving DecidableEq, Repr

/-- Why the machine stops where the rules give no next state although no rule refuses the step. -/
inductive Fault where
  /-- An index above 4 into a five-byte buffer: raised by XCHG and the header rows through `exchange` when a channel's
  `addr` leaves 0..4 (R34, R35 give no meaning). Only in states no run reaches (log 10). Safe. -/
  | bufferIndex
  /-- A quadruple `(BUS, DIR, RXEV, RXWAIT)` that R42 does not list: raised by RXDONE and TXDONE. Only in states no run
  reaches (log 11). Safe. -/
  | illegalPhase
  /-- A DMA transfer error or an SPI error reported by the bus (U6, log 13): raised by `fetch` for the input
  `busError`. Safe. -/
  | busError
deriving DecidableEq, Repr

/-- Why a step is refused: no next state, no effect (R13, R285). All are safe: a refused step proves nothing false. -/
inductive Refusal where
  /-- An instruction whose meaning is not written yet; raised by `exec`'s arms only. -/
  | notModelled (mnemonic : String)
  /-- `InvalidWord`: raised by `fetch` for a symbol the decoder rejects (R105). -/
  | invalidWord
  /-- `NotInitialised`: SEND, EVTREQ and the four services while `INITED = 0` (R285). -/
  | notInitialised
  /-- `ZeroLength`: SEND, EVTREQ with `len = 0` (R285). -/
  | zeroLength
  /-- `BufferWraps`: SEND, EVTREQ with `buf + len > 2^AW` (R285). -/
  | bufferWraps
  /-- `InitWhileBusy`: INIT while `BUS = Busy` (R201). -/
  | initWhileBusy
  /-- `EvtReqWhileRxActive`: EVTREQ while a read-header or a receive burst is in flight (R204). -/
  | evtReqWhileRxActive
  /-- `NotPending`: a service whose latch (and enable) is not set (R285). -/
  | notPending
  /-- `NotArmed`: TMREXP while `TMRARM = 0` (R247). -/
  | notArmed
  /-- `NoExchange`: XCHG with chip-select released, a channel disabled or a count of 0 (R175). -/
  | noExchange
  /-- The model's own: `fetch` finds no input, no agent has chosen a step (log 2). -/
  | noOperation
  /-- The model's own: a header row where no fresh header exchange of its direction is armed (log 7). -/
  | noHeaderExchange
  /-- The model's own: a HDR_RD_CMD or HDR_WR_CMD string that is not the template, so not that format (R108, log 8). -/
  | notTemplate
deriving DecidableEq, Repr

/-- What `fetch` finds: an instruction to execute in a state, or an outcome already. -/
inductive Fetched where
  | run (i : Instr) (s : State)
  | done (o : Host.Outcome State Fault Refusal)
deriving Repr

/-- The default parameters of R8 (K1 to K4). PRESUMED by the spec itself, log 5. -/
def Params.default : Params :=
  { readyCode := 0x02, tmplRd := ⟨0x0B, 0, 0, 0, 0⟩, tmplWr := ⟨0x0A, 0, 0, 0, 0⟩, dummyTx := 0xFF }

/-- The power-on state: `S0` with `RDY = 0` and `MEM` empty (R43, R330); nothing observed, nothing chosen. -/
def State.reset : State :=
  { inited := false, mode := 0
    bus := .available, dir := .none, rxev := .endOfTransfer, rxwait := false
    tx := { ptr := 0, rem := 0, burst := 0, cont := false, valid := false }
    rx := { ptr := 0, size := 0, rem := 0, burst := 0, cont := false, valid := false }
    pend := { valid := false, ptr := 0, len := 0 }
    cs := false, rdy := false, rdypend := false, rdyie := false
    holdTx := false, holdRx := false
    tmrarm := false, topend := false, toflag := false
    txch := { sel := .dummy, addr := 0, cnt := 0, minc := false, en := false }
    rxch := { sel := .sink, addr := 0, cnt := 0, minc := false, en := false }
    tctx := false, tcrx := false
    hdrRx := ⟨0, 0, 0, 0, 0⟩, rxres := 0, mem := []
    par := Params.default
    trace := [], input := [], draws := 0 }

end Sys2Proof.Machine
end

