-- ==== Sys2Proof/Machine/Flags.lean ====
section
/-! DEFINITION. What the control bits mean: the phase (R42), the output to the low-power gate (R32), the four
interrupt sources with their latches and enables
(R286), the one shared entry into a service (R290), and the enabling condition of an exchange (R175). -/

namespace Sys2Proof.Machine

/-- The phase (R42); none for a quadruple the rule does not list (log 11). -/
def phase (s : State) : Option Phase :=
  match s.bus, s.dir, s.rxev, s.rxwait with
  | .available, _, _, _ => some .idle
  | .busy, .tx, .checkHeaderForTransmit, false => some .txHdr
  | .busy, .tx, .continuePayload, false => some .txPayMore
  | .busy, .tx, .endOfTransfer, false => some .txPayLast
  | .busy, .rx, .checkHeaderForReceive, false => some .rxHdr
  | .busy, .rx, .continuePayload, false => some .rxPayMore
  | .busy, .rx, .endOfTransfer, false => some .rxPayLast
  | .busy, .rx, .continuePayload, true => some .rxWaitBuf
  | _, _, _, _ => none

/-- `nosleep = HOLD_TX or HOLD_RX`, the output to the low-power gate (R32): a function of the votes, not state. -/
def nosleep (s : State) : Bool := s.holdTx || s.holdRx

/-- The four interrupt sources (R286). -/
inductive IrqSource where
  | readyLine
  | txDma
  | rxDma
  | timer
deriving DecidableEq, Repr

/-- The latch of a source, and for the ready line its enable (R30, R31, R33, R36, R286). -/
def irqPending (q : IrqSource) (s : State) : Bool :=
  match q with
  | .readyLine => s.rdypend && s.rdyie
  | .txDma => s.tctx
  | .rxDma => s.tcrx
  | .timer => s.topend

/-- A service clears its own latch first (R286, R290). -/
def irqClear (q : IrqSource) (s : State) : State :=
  match q with
  | .readyLine => { s with rdypend := false }
  | .txDma => { s with tctx := false }
  | .rxDma => { s with tcrx := false }
  | .timer => { s with topend := false }

/-- Entering a service: the enabling condition of R230, R232, R240, R244, then the latch cleared. Nothing else is saved,
no mode is switched (R290), and the return restores nothing (R291). -/
def enterService (q : IrqSource) (s : State) (handler : State → Host.Outcome State Fault Refusal) :
    Host.Outcome State Fault Refusal :=
  if s.inited = false then .refused .notInitialised
  else if irqPending q s = false then .refused .notPending
  else handler (irqClear q s)

/-- The enabling condition of XCHG (R175). -/
def exchangeEnabled (s : State) : Bool :=
  s.cs && s.txch.en && s.rxch.en && decide (0 < s.txch.cnt) && decide (0 < s.rxch.cnt)

/-- The preconditions SEND and EVTREQ share, in the pseudocode's order (R202, R204, R285): the reason to refuse, if
any. -/
def hostRefusal (buf : Addr) (len : Len) (s : State) : Option Refusal :=
  if s.inited = false then some .notInitialised
  else if lenOk len = false then some .zeroLength
  else if bufferOk buf len = false then some .bufferWraps
  else none

end Sys2Proof.Machine
end

