-- ==== Sys2Proof/Machine/Operands.lean ====
section
/-! DEFINITION. Pure functions over operands: five-byte buffers, the header codec and the burst arithmetic
(41_header_codec.md), and host memory as data (20_memory.md). None writes state. -/

namespace Sys2Proof.Machine

/-! ### Five-byte buffers (R11, R37) -/

/-- `B[i]`, for an index 0..4. -/
def Hdr5.get? (h : Hdr5) (i : Nat) : Option Byte :=
  match i with
  | 0 => some h.b0
  | 1 => some h.b1
  | 2 => some h.b2
  | 3 => some h.b3
  | 4 => some h.b4
  | _ => none

/-- `B[i] <- v`, for an index 0..4. -/
def Hdr5.set? (h : Hdr5) (i : Nat) (v : Byte) : Option Hdr5 :=
  match i with
  | 0 => some { h with b0 := v }
  | 1 => some { h with b1 := v }
  | 2 => some { h with b2 := v }
  | 3 => some { h with b3 := v }
  | 4 => some { h with b4 := v }
  | _ => none

/-! ### Header codec -/

/-- `HdrTemplate(d)` (R150): the five bytes the master sends. -/
def hdrTemplate (p : Params) (d : Way) : Hdr5 :=
  match d with
  | .rx => p.tmplRd
  | .tx => p.tmplWr

/-- `HdrParse(d, H)` (R151): the state code and the count. -/
def hdrParse (d : Way) (h : Hdr5) : Byte × Len :=
  match d with
  | .rx => (h.b0, leCount h.b3 h.b4)
  | .tx => (h.b0, leCount h.b1 h.b2)

/-- `Go(state, count)` (R152). -/
def go (p : Params) (state : Byte) (count : Len) : Bool :=
  state == p.readyCode && decide (0 < count)

/-- The three results of `Classify` (R153). -/
inductive Verdict where
  | accept
  | retry
  | spurious
deriving DecidableEq, Repr

/-- `Classify(d, state, count, rdy)` (R153). -/
def classify (p : Params) (d : Way) (state : Byte) (count : Len) (rdy : Bool) : Verdict :=
  if go p state count then .accept
  else if d = .rx ∧ count = 0 ∧ rdy = false then .spurious
  else .retry

/-! ### Burst arithmetic, unsigned (R156) -/

/-- `(burst, more, rem')`, the result of `TxBurst` and `RxBurst`. -/
structure Burst where
  size : Len
  more : Bool
  rem : Len
deriving DecidableEq, Repr

/-- The unsigned minimum (R12). -/
def umin (a b : Len) : Len := if a ≤ b then a else b

/-- `TxBurst(count, rem)` (R154): continue when the window is smaller than what is left. -/
def txBurst (count rem : Len) : Burst :=
  { size := umin count rem, more := decide (count < rem), rem := rem - umin count rem }

/-- `RxBurst(total, size)` (R155): continue when the event does not fit in the buffer. -/
def rxBurst (total size : Len) : Burst :=
  { size := umin total size, more := decide (total > size), rem := total - umin total size }

/-- `a + n` on `AW` bits (R76), which carries out nowhere (R156): where the sum is beyond the top of the address space, no
rule states it and it is a free value (log 28). -/
def advanceAddr (a : Addr) (n : Len) : Addr :=
  if a.toNat + n.toNat < Config.addrSpace then a + n.setWidth 32 else Config.sumPastTop a n

/-! ### Host memory as data (R74, R75) -/

/-- The byte something has written at `a`, if any. -/
def Memory.read? (m : Memory) (a : Nat) : Option Byte :=
  match m with
  | [] => none
  | (k, v) :: rest => if k = a then some v else Memory.read? rest a

/-- `MemWrite(a, 1, v)`, keeping addresses in strictly rising order. -/
def Memory.write (m : Memory) (a : Nat) (v : Byte) : Memory :=
  match m with
  | [] => [(a, v)]
  | (k, w) :: rest =>
    if a < k then (a, v) :: (k, w) :: rest
    else if a = k then (a, v) :: rest
    else (k, w) :: Memory.write rest a v

/-- Every listed address is above `a`, and the list is strictly rising and within the address space. -/
def Memory.wfAbove (m : Memory) (low : Nat) : Bool :=
  match m with
  | [] => true
  | (k, _) :: rest => decide (low ≤ k) && decide (k < Config.addrSpace) && Memory.wfAbove rest (k + 1)

/-- The canonical form: addresses strictly rising and below `2^AW`. An unlisted address reads as no known byte, so no
listed entry can equal what it would read as unlisted. -/
def Memory.wf (m : Memory) : Bool := Memory.wfAbove m 0

/-- `MemRead(a, 1)` (R75): the byte written there, or the free value of draw `n` where nothing was (U9, log 6). -/
def memRead (m : Memory) (n : Nat) (a : Addr) : Byte :=
  match Memory.read? m a.toNat with
  | some v => v
  | none => Config.unwrittenByte n

end Sys2Proof.Machine
end

