-- ==== Sys2Proof/Machine/Ops.lean ====
section
/-! DEFINITION. The procedures that operations call (R12): line driver (40_line_driver.md), timer and votes
(60_exceptions.md), transfer manager and byte exchange (42_transfer_manager.md), start, program, close
(43_host_commands.md, 44_event_handlers.md). Each takes the state last, so that a rule's pseudocode reads downwards. -/

namespace Sys2Proof.Machine

/-- `emit e` (R12, R14): the effect goes to the end of the output trace. -/
def emit (e : Effect) (s : State) : State := { s with trace := s.trace ++ [e] }

/-- "hold", "wait": no clock, so no effect on state (R350, log 14). -/
def holdFor (_duration : Nat) (s : State) : State := s

/-! ### Line driver -/

/-- `CsAssert()` (R130). -/
def csAssert (s : State) : State := emit (.cs true) { s with cs := true }

/-- `CsRelease()` (R131). -/
def csRelease (s : State) : State := emit (.cs false) { s with cs := false }

/-- `CsBounce()` (R132). -/
def csBounce (s : State) : State := csAssert (holdFor Config.tCsHighMin (csRelease s))

/-- `ReadyLevel()` (R138). -/
def readyLevel (s : State) : Bool := s.rdy

/-- `EnableRxPath()` (R136). -/
def enableRxPath (s : State) : State := { s with rdypend := readyLevel s, rdyie := true }

/-- `DisableRxPath()` (R137). -/
def disableRxPath (s : State) : State := { s with rdyie := false }

/-! ### Timer and votes -/

/-- `TmrStart()` (R295). -/
def tmrStart (s : State) : State := emit .tmrStart { s with tmrarm := true, topend := false }

/-- `TmrStop()` (R295). -/
def tmrStop (s : State) : State := emit .tmrStop { s with tmrarm := false, topend := false }

/-- `S.HOLD_d <- v` (R32). -/
def setHold (d : Way) (v : Bool) (s : State) : State :=
  match d with
  | .tx => { s with holdTx := v }
  | .rx => { s with holdRx := v }

/-- `LpmRequest(d)` (R297). -/
def lpmRequest (d : Way) (s : State) : State := emit (.lpmRequest d) (setHold d true s)

/-- `LpmAllow(d)` (R297). -/
def lpmAllow (d : Way) (s : State) : State := emit (.lpmAllow d) (setHold d false s)

/-! ### Transfer manager -/

/-- `Flush()` (R170). -/
def flush (s : State) : State :=
  { s with txch := { s.txch with en := false }, rxch := { s.rxch with en := false }, tctx := false, tcrx := false }

/-- The transmit channel as a header exchange arms it (R171). -/
def headerTxChan (d : Way) : TxChan :=
  { sel := match d with | .rx => .tmplRd | .tx => .tmplWr, addr := 0, cnt := Config.hdrLen, minc := true, en := true }

/-- The receive channel as a header exchange arms it (R171). -/
def headerRxChan : RxChan := { sel := .hdr, addr := 0, cnt := Config.hdrLen, minc := true, en := true }

/-- `ArmHeader(d)` (R171, R179). Both channels are enabled in the one step (R174). -/
def armHeader (d : Way) (s : State) : State :=
  { flush s with rxres := 0, txch := headerTxChan d, rxch := headerRxChan }

/-- `ArmPayloadTx(p, n)` (R172). -/
def armPayloadTx (p : Addr) (n : Len) (s : State) : State :=
  { flush s with
    txch := { sel := .mem, addr := p, cnt := n, minc := true, en := true }
    rxch := { sel := .sink, addr := 0, cnt := n, minc := false, en := true } }

/-- `ArmPayloadRx(p, n)` (R173). -/
def armPayloadRx (p : Addr) (n : Len) (s : State) : State :=
  { flush s with
    txch := { sel := .dummy, addr := 0, cnt := n, minc := false, en := true }
    rxch := { sel := .mem, addr := p, cnt := n, minc := true, en := true } }

/-! ### The byte exchange (R175) -/

/-- The byte the transmit channel sends; none for an index above 4 into a template (log 10). -/
def mosiByte? (s : State) : Option Byte :=
  match s.txch.sel with
  | .tmplRd => Hdr5.get? (hdrTemplate s.par .rx) s.txch.addr.toNat
  | .tmplWr => Hdr5.get? (hdrTemplate s.par .tx) s.txch.addr.toNat
  | .dummy => some s.par.dummyTx
  | .mem => some (memRead s.mem s.draws s.txch.addr)

/-- Whether the exchange draws a free value: a transmit byte that nothing has written (U9, log 6). -/
def readsUnwritten (s : State) : Bool :=
  s.txch.sel == .mem && (Memory.read? s.mem s.txch.addr.toNat).isNone

/-- Where the received byte goes; none for an index above 4 into `HDR_RX` (log 10). -/
def storeMiso? (miso : Byte) (s : State) : Option State :=
  match s.rxch.sel with
  | .hdr => (Hdr5.set? s.hdrRx s.rxch.addr.toNat miso).map fun h => { s with hdrRx := h }
  | .sink => some s
  | .mem => some { s with mem := Memory.write s.mem s.rxch.addr.toNat miso }

/-- The address of a channel after one byte: it moves only with memory increment on (R76). -/
def nextAddr (minc : Bool) (a : Addr) : Addr := if minc then advanceAddr a 1 else a

/-- A transmit channel after one byte. -/
def TxChan.next (c : TxChan) : TxChan := { c with addr := nextAddr c.minc c.addr, cnt := c.cnt - 1 }

/-- A receive channel after one byte. -/
def RxChan.next (c : RxChan) : RxChan := { c with addr := nextAddr c.minc c.addr, cnt := c.cnt - 1 }

/-- Both channels advance, and a count that reaches 0 sets its latch (R175, R178). -/
def advanceChannels (s : State) : State :=
  { s with
    txch := s.txch.next
    rxch := s.rxch.next
    tctx := s.tctx || s.txch.next.cnt == 0
    tcrx := s.tcrx || s.rxch.next.cnt == 0 }

/-- One byte each way, in one step (R175). -/
def exchange (miso : Byte) (s : State) : Host.Outcome State Fault Refusal :=
  if exchangeEnabled s then
    match mosiByte? s, storeMiso? miso s with
    | some mosi, some t =>
      .next (advanceChannels (emit (.wire mosi miso) { t with draws := if readsUnwritten s then s.draws + 1 else s.draws }))
    | _, _ => .fault .bufferIndex
  else .refused .noExchange

/-- The exchanges of a list of bytes, oldest first (`XCHG*`, R116). -/
def exchangeAll (bytes : List Byte) (s : State) : Host.Outcome State Fault Refusal :=
  match bytes with
  | [] => .next s
  | b :: rest =>
    match exchange b s with
    | .next t => exchangeAll rest t
    | .fault r => .fault r
    | .refused r => .refused r

/-- A header exchange of direction `d` is armed and none of its bytes has moved (R113, R114, R171). -/
def headerArmed (d : Way) (s : State) : Bool :=
  phase s == some (match d with | .rx => .rxHdr | .tx => .txHdr)
    && s.cs && s.txch == headerTxChan d && s.rxch == headerRxChan

/-- The five byte pairs of a header exchange of direction `d`, the coprocessor's bytes given (R113, R176, log 7). -/
def headerExchange (d : Way) (response : Hdr5) (s : State) : Host.Outcome State Fault Refusal :=
  if headerArmed d s then exchangeAll (hdrList response) s else .refused .noHeaderExchange

/-- The coprocessor's five bytes where only the master's are given: five free values (R299, log 8). -/
def drawResponse (s : State) : Hdr5 :=
  ⟨Config.coprocByte s.draws, Config.coprocByte (s.draws + 1), Config.coprocByte (s.draws + 2),
    Config.coprocByte (s.draws + 3), Config.coprocByte (s.draws + 4)⟩

/-- The same exchange from the master's side: the string must be the template (R108), the response is free (log 8). -/
def headerCommand (d : Way) (tmpl : Hdr5) (s : State) : Host.Outcome State Fault Refusal :=
  if tmpl = hdrTemplate s.par d then headerExchange d (drawResponse s) { s with draws := s.draws + 5 }
  else .refused .notTemplate

/-! ### Opening a sequence -/

/-- `StartTx(p, n)` (R203). -/
def startTx (p : Addr) (n : Len) (s : State) : State :=
  let s := { s with bus := .busy, dir := .tx }
  let s := disableRxPath s
  let s := csAssert s
  let s := tmrStart s
  let s := lpmRequest .tx s
  let s := { s with
    tx := { ptr := p, rem := n, burst := 0, cont := false, valid := true }
    rxwait := false
    rxev := .checkHeaderForTransmit }
  armHeader .tx s

/-- `StartRx()` (R231). -/
def startRx (s : State) : State :=
  let s := { s with bus := .busy, dir := .rx }
  let s := disableRxPath s
  let s := csAssert s
  let s := tmrStart s
  let s := lpmRequest .rx s
  let s := { s with rxwait := false, rxev := .checkHeaderForReceive }
  armHeader .rx s

/-- The event of a programmed burst: more to come, or the last (R205, R234). -/
def burstEvent (more : Bool) : RxEv := if more then .continuePayload else .endOfTransfer

/-- `RxProgram(total)` (R205). -/
def rxProgram (total : Len) (s : State) : State :=
  let b := rxBurst total s.rx.size
  let s := { s with
    rx := { s.rx with burst := b.size, rem := b.rem, cont := b.more }
    rxev := burstEvent b.more
    rxwait := false }
  armPayloadRx s.rx.ptr b.size s

/-- `Retry(d)` (R236). -/
def retry (d : Way) (s : State) : State := armHeader d (csBounce s)

/-! ### Closing a sequence -/

/-- `Close(d)` (R245). -/
def close (d : Way) (s : State) : State :=
  let s := flush s
  let s := csRelease s
  let s := lpmAllow d s
  let s := tmrStop s
  { s with bus := .available, dir := .none, rxev := .endOfTransfer, rxwait := false }

/-- `AfterClose()` (R246). -/
def afterClose (s : State) : State :=
  if s.pend.valid then
    startTx s.pend.ptr s.pend.len
      (holdFor Config.tCsHighMin { s with pend := { valid := false, ptr := 0, len := 0 } })
  else if s.rx.valid then enableRxPath s
  else s

/-- `SpuriousClose()` (R235). -/
def spuriousClose (s : State) : State := afterClose (close .rx s)

/-! ### Reset -/

/-- `S <- S0 except S.MEM and S.RDY` (R200, R201). The parameters are not touched (R331), nor is what is no state of the
machine: the trace, the agents' choices and the draw counter (R44). -/
def toResetState (s : State) : State :=
  { State.reset with
    mem := s.mem, rdy := s.rdy, par := s.par, trace := s.trace, input := s.input, draws := s.draws }

/-- Emit `e` if `b` holds (R200). -/
def emitIf (b : Bool) (e : Effect) (s : State) : State := if b then emit e s else s

end Sys2Proof.Machine
end

