-- ==== Sys2Proof/Machine/Events.lean ====
section
/-! DEFINITION. The event handlers and the timer: RDYIRQ, RXDONE, TXDONE, TIMEOUT, TMREXP (44_event_handlers.md). -/

namespace Sys2Proof.Machine

/-! ### RDYIRQ -/

/-- RDYIRQ (R230): open a receive sequence, or ignore the event while Busy. -/
def execRdyirq (s : State) : Host.Outcome State Fault Refusal :=
  enterService .readyLine s fun s =>
    match s.bus with
    | .available => .next (startRx s)
    | .busy => .next s

/-! ### RXDONE -/

/-- `HeaderCompleteRx()` (R233). -/
def headerCompleteRx (s : State) : State :=
  let h := hdrParse .rx s.hdrRx
  match classify s.par .rx h.1 h.2 (readyLevel s) with
  | .accept => rxProgram h.2 s
  | .retry => retry .rx s
  | .spurious => spuriousClose s

/-- The accept arm of `HeaderCompleteTx()` (R234): program the transmit burst a window of `count` bytes allows. -/
def txProgram (count : Len) (s : State) : State :=
  let b := txBurst count s.tx.rem
  let s := { s with tx := { s.tx with burst := b.size, rem := b.rem, cont := b.more }, rxev := burstEvent b.more }
  armPayloadTx s.tx.ptr b.size s

/-- `HeaderCompleteTx()` (R234). `Classify(Tx, ...)` is never spurious (R153), so that arm is never taken. -/
def headerCompleteTx (s : State) : State :=
  let h := hdrParse .tx s.hdrRx
  match classify s.par .tx h.1 h.2 (readyLevel s) with
  | .accept => txProgram h.2 s
  | .retry => retry .tx s
  | .spurious => retry .tx s

/-- `PayloadCompleteRxEnd()` (R237). -/
def payloadCompleteRxEnd (s : State) : State :=
  let n := s.rx.burst
  let s := close .rx s
  let s := { s with rx := { ptr := 0, size := 0, rem := 0, burst := 0, cont := false, valid := false } }
  let s := holdFor Config.tRxNotifyDelay s
  let s := emit (.notifyRx n false) s
  afterClose s

/-- `PayloadCompleteRxMore()` (R238). For a buffer that ends at the top of the address space the advanced `RX.ptr` is a free
value (log 28), which EVTREQ overwrites before any rule reads it. -/
def payloadCompleteRxMore (s : State) : State :=
  let s := { s with
    rx := { s.rx with ptr := advanceAddr s.rx.ptr s.rx.burst, size := s.rx.size - s.rx.burst }
    rxwait := true }
  emit (.notifyRx s.rx.burst true) s

/-- RXDONE (R232): the phase says what the finished burst means. -/
def execRxdone (s : State) : Host.Outcome State Fault Refusal :=
  enterService .rxDma s fun s =>
    match phase s with
    | some .rxHdr => .next (headerCompleteRx s)
    | some .txHdr => .next (headerCompleteTx s)
    | some .rxPayLast => .next (payloadCompleteRxEnd s)
    | some .rxPayMore => .next (payloadCompleteRxMore s)
    | some .txPayMore => .next s
    | some .txPayLast => .next s
    | some .rxWaitBuf => .next s
    | some .idle => .next s
    | none => .fault .illegalPhase

/-! ### TXDONE -/

/-- `PayloadCompleteTxMore()` (R241). -/
def payloadCompleteTxMore (s : State) : State :=
  let s := { s with tx := { s.tx with ptr := advanceAddr s.tx.ptr s.tx.burst } }
  let s := csBounce s
  let s := { s with rxev := .checkHeaderForTransmit }
  armHeader .tx s

/-- `PayloadCompleteTxEnd()` (R242). -/
def payloadCompleteTxEnd (s : State) : State :=
  let s := close .tx s
  let s := { s with tx := { ptr := 0, rem := 0, burst := 0, cont := false, valid := false } }
  let s := emit .notifyTx s
  afterClose s

/-- TXDONE (R240). -/
def execTxdone (s : State) : Host.Outcome State Fault Refusal :=
  enterService .txDma s fun s =>
    match phase s with
    | some .txPayMore => .next (payloadCompleteTxMore s)
    | some .txPayLast => .next (payloadCompleteTxEnd s)
    | some .txHdr => .next s
    | some .rxHdr => .next s
    | some .rxPayMore => .next s
    | some .rxPayLast => .next s
    | some .rxWaitBuf => .next s
    | some .idle => .next s
    | none => .fault .illegalPhase

/-! ### The timer -/

/-- TMREXP (R247). -/
def execTmrexp (s : State) : Host.Outcome State Fault Refusal :=
  if s.tmrarm = false then .refused .notArmed
  else .next { s with tmrarm := false, topend := true }

/-- TIMEOUT (R244). -/
def execTimeout (s : State) : Host.Outcome State Fault Refusal :=
  enterService .timer s fun s => .next (emit .notifyTimeout { s with toflag := true })

end Sys2Proof.Machine
end

