-- ==== Sys2Proof/Machine/HostCommands.lean ====
section
/-! DEFINITION. The operations the host issues: RESET, INIT, SEND, EVTREQ (43_host_commands.md). -/

namespace Sys2Proof.Machine

/-- RESET (R200). -/
def execReset (s : State) : Host.Outcome State Fault Refusal :=
  let t := emitIf s.cs (.cs false) s
  let t := emitIf s.holdTx (.lpmAllow .tx) t
  let t := emitIf s.holdRx (.lpmAllow .rx) t
  let t := emitIf s.tmrarm .tmrStop t
  .next (toResetState t)

/-- INIT (R201). -/
def execInit (mode : Byte) (s : State) : Host.Outcome State Fault Refusal :=
  if s.bus = .busy then .refused .initWhileBusy
  else .next { toResetState s with inited := true, mode := mode }

/-- SEND (R202). -/
def execSend (buf : Addr) (len : Len) (s : State) : Host.Outcome State Fault Refusal :=
  match hostRefusal buf len s with
  | some r => .refused r
  | none =>
    match s.bus with
    | .available => .next (startTx buf len s)
    | .busy => .next { s with pend := { valid := true, ptr := buf, len := len } }

/-- EVTREQ (R204). -/
def execEvtreq (buf : Addr) (len : Len) (s : State) : Host.Outcome State Fault Refusal :=
  match hostRefusal buf len s with
  | some r => .refused r
  | none =>
    if s.bus = .busy ∧ s.dir = .rx then
      if s.rxwait = false then .refused .evtReqWhileRxActive
      else .next (rxProgram s.rx.rem { s with rx := { s.rx with ptr := buf, size := len } })
    else
      .next (enableRxPath
        { s with rx := { ptr := buf, size := len, rem := 0, burst := 0, cont := false, valid := true } })

end Sys2Proof.Machine
end

