-- ==== Sys2Proof/Machine/LineDriver.lean ====
section
/-! DEFINITION. RDYLVL, the operation of the ready-line synchroniser (40_line_driver.md). -/

namespace Sys2Proof.Machine

/-- RDYLVL (R134): a rising edge sets the latch, whatever the enable. -/
def execRdylvl (level : Bool) (s : State) : Host.Outcome State Fault Refusal :=
  .next { s with rdypend := s.rdypend || (!s.rdy && level), rdy := level }

end Sys2Proof.Machine
end

