-- ==== Sys2Proof/Machine/Transfer.lean ====
section
/-! DEFINITION. XCHG (42_transfer_manager.md), and the four header formats as whole header exchanges (30_encoding.md
R106 to R108, R113; log 7). -/

namespace Sys2Proof.Machine

/-- XCHG (R175). -/
def execXchg (miso : Byte) (s : State) : Host.Outcome State Fault Refusal := exchange miso s

/-- HDR_RD_RSP (R106): the coprocessor answers a read-header exchange with these five bytes. -/
def execHdrRdRsp (state rsv1 rsv2 : Byte) (count : Len) (s : State) : Host.Outcome State Fault Refusal :=
  headerExchange .rx (rdRspBytes state rsv1 rsv2 count) s

/-- HDR_WR_RSP (R107): the coprocessor answers a write-header exchange with these five bytes. -/
def execHdrWrRsp (state : Byte) (count : Len) (rsv3 rsv4 : Byte) (s : State) : Host.Outcome State Fault Refusal :=
  headerExchange .tx (wrRspBytes state count rsv3 rsv4) s

/-- HDR_RD_CMD (R108): the master sends the read-header template. -/
def execHdrRdCmd (tmpl : Hdr5) (s : State) : Host.Outcome State Fault Refusal := headerCommand .rx tmpl s

/-- HDR_WR_CMD (R108): the master sends the write-header template. -/
def execHdrWrCmd (tmpl : Hdr5) (s : State) : Host.Outcome State Fault Refusal := headerCommand .tx tmpl s

end Sys2Proof.Machine
end

