-- ==== Sys2Proof/Machine/Dispatch.lean ====
section
/-! DEFINITION. One arm per row of spec/opcode_table.json. -/

namespace Sys2Proof.Machine

/-- The meaning of an instruction (R13). -/
def exec (i : Instr) (s : State) : Host.Outcome State Fault Refusal :=
  match i with
  | .init mode => Sys2Proof.Machine.execInit mode s
  | .send buf len => Sys2Proof.Machine.execSend buf len s
  | .evtreq buf len => Sys2Proof.Machine.execEvtreq buf len s
  | .rdyirq => Sys2Proof.Machine.execRdyirq s
  | .txdone => Sys2Proof.Machine.execTxdone s
  | .rxdone => Sys2Proof.Machine.execRxdone s
  | .timeout => Sys2Proof.Machine.execTimeout s
  | .xchg miso => Sys2Proof.Machine.execXchg miso s
  | .rdylvl level => Sys2Proof.Machine.execRdylvl level s
  | .tmrexp => Sys2Proof.Machine.execTmrexp s
  | .reset => Sys2Proof.Machine.execReset s
  | .hdrRdRsp state rsv1 rsv2 count => Sys2Proof.Machine.execHdrRdRsp state rsv1 rsv2 count s
  | .hdrWrRsp state count rsv3 rsv4 => Sys2Proof.Machine.execHdrWrRsp state count rsv3 rsv4 s
  | .hdrRdCmd tmpl => Sys2Proof.Machine.execHdrRdCmd tmpl s
  | .hdrWrCmd tmpl => Sys2Proof.Machine.execHdrWrCmd tmpl s

end Sys2Proof.Machine
end

