-- ==== Sys2Proof/Machine/Fetch.lean ====
section
/-! DEFINITION. What the next step is: the oldest of the agents' choices (R13, R20; log 1). SPIHD fetches no
instructions (R70, R83); this stands for the agents. -/

namespace Sys2Proof.Machine

/-- Take the oldest input. A symbol is decoded; one that is no instruction is refused (R105). A host store changes host
memory and nothing else (log 12). No input, no step (log 2). -/
def fetch (s : State) : Fetched :=
  match s.input with
  | [] => .done (.refused .noOperation)
  | .sym x :: rest =>
    match decode x with
    | .ok i => .run i { s with input := rest }
    | .error _ => .done (.refused .invalidWord)
  | .hostStore a v :: rest => .done (.next { s with input := rest, mem := Memory.write s.mem a.toNat v })
  | .busError :: _ => .done (.fault .busError)

end Sys2Proof.Machine
end

