-- ==== Sys2Proof/Machine/Step.lean ====
section
/-! DEFINITION. One step (R13), and the placing of one symbol as the next one. -/

namespace Sys2Proof.Machine

/-- A step: the oldest input, decoded and executed in the state without it. -/
def step (s : State) : Host.Outcome State Fault Refusal :=
  match fetch s with
  | .run i t => exec i t
  | .done o => o

/-- `s` with the symbol of `w` as its oldest input, so that the next step runs it (log 1, log 9). -/
def State.withFetchWord (s : State) (nbits w : Nat) : State :=
  { s with input := .sym (tableSymbol nbits w) :: s.input }

end Sys2Proof.Machine
end

