-- ==== Sys2Proof/Safety.lean ====
section
/-! DEFINITION. What claims about SPIHD are stated in: the invariants of R41 and the clauses they need to be kept by every
step, the transition table R248, and the shapes of effect sequences and of rounds of bursts. -/

namespace Sys2Proof.Machine

/-! ### The nine items of R41 -/

/-- R41 item 1. -/
abbrev BusyIffSequence (s : State) : Prop := s.bus = .busy ↔ s.dir ≠ .none

/-- R41 item 2. -/
abbrev AvailableIsQuiet (s : State) : Prop :=
  s.bus = .available → s.txch.en = false ∧ s.rxch.en = false ∧ s.cs = false ∧ s.tctx = false ∧ s.tcrx = false

/-- R41 item 3. -/
abbrev PendingOnlyWhileBusy (s : State) : Prop := s.pend.valid = true → s.bus = .busy

/-- R41 item 4. -/
abbrev ChipSelectIffBusy (s : State) : Prop := s.cs = true ↔ s.bus = .busy

/-- R41 item 5. -/
abbrev VotesFollowSequence (s : State) : Prop := (s.holdTx = true ↔ s.dir = .tx) ∧ (s.holdRx = true ↔ s.dir = .rx)

/-- R41 item 6. -/
abbrev ChannelsPaired (s : State) : Prop := s.txch.en = s.rxch.en ∧ s.txch.cnt = s.rxch.cnt

/-- R41 item 7. -/
abbrev PhaseListed (s : State) : Prop := phase s ≠ none

/-- R41 item 8. -/
abbrev ReadyEnableHasBuffer (s : State) : Prop := s.rdyie = true → s.rx.valid = true ∧ s.dir ≠ .rx

/-- R41 item 9. -/
abbrev ContextsFollowSequence (s : State) : Prop :=
  (s.tx.valid = true ↔ s.dir = .tx) ∧ (s.rxwait = true → s.rx.cont = true ∧ s.rx.size = 0 ∧ 0 < s.rx.rem)

/-- R41, all nine items. -/
abbrev SpecInv (s : State) : Prop :=
  BusyIffSequence s ∧ AvailableIsQuiet s ∧ PendingOnlyWhileBusy s ∧ ChipSelectIffBusy s ∧ VotesFollowSequence s ∧
    ChannelsPaired s ∧ PhaseListed s ∧ ReadyEnableHasBuffer s ∧ ContextsFollowSequence s

/-! ### What else every step keeps (DEDUCED from the rules, log 21) -/

/-- While `Available`, `RXEV` is `EndOfTransfer` and `RXWAIT` is 0 (R23, R24). -/
abbrev IdleIsCanonical (s : State) : Prop := s.bus = .available → s.rxev = .endOfTransfer ∧ s.rxwait = false

/-- The timer runs, or waits to be served, only inside a sequence, and never both (R247, R295). -/
abbrev TimerInsideSequence (s : State) : Prop :=
  (s.tmrarm = true → s.bus = .busy) ∧ (s.topend = true → s.bus = .busy) ∧ ¬(s.tmrarm = true ∧ s.topend = true)

/-- A sequence is open only after INIT (R28). -/
abbrev BusyIsInitialised (s : State) : Prop := s.bus = .busy → s.inited = true

/-- The context of an open transmit sequence (R25). -/
abbrev TxContextFits (s : State) : Prop :=
  (phase s = some .txHdr → 0 < s.tx.rem ∧ s.tx.ptr.toNat + s.tx.rem.toNat ≤ Config.addrSpace) ∧
  (phase s = some .txPayMore → 0 < s.tx.burst ∧ 0 < s.tx.rem ∧
    s.tx.ptr.toNat + s.tx.burst.toNat + s.tx.rem.toNat ≤ Config.addrSpace) ∧
  (phase s = some .txPayLast → 0 < s.tx.burst ∧ s.tx.rem = 0 ∧
    s.tx.ptr.toNat + s.tx.burst.toNat ≤ Config.addrSpace)

/-- The receive context, armed or in use (R26). -/
abbrev RxContextFits (s : State) : Prop :=
  (s.dir = .rx → s.rx.valid = true) ∧
  (s.rx.valid = true → s.rx.ptr.toNat + s.rx.size.toNat ≤ Config.addrSpace) ∧
  (s.rx.valid = true → s.dir ≠ .rx → 0 < s.rx.size) ∧
  (phase s = some .rxHdr → 0 < s.rx.size) ∧
  (phase s = some .rxPayMore → 0 < s.rx.burst ∧ s.rx.burst = s.rx.size ∧ 0 < s.rx.rem ∧ s.rx.cont = true) ∧
  (phase s = some .rxPayLast → 0 < s.rx.burst ∧ s.rx.burst ≤ s.rx.size ∧ s.rx.rem = 0)

/-- A queued request meets SEND's preconditions (R202, R27). -/
abbrev PendingFits (s : State) : Prop :=
  s.pend.valid = true → 0 < s.pend.len ∧ s.pend.ptr.toNat + s.pend.len.toNat ≤ Config.addrSpace

/-- A template and `HDR_RX` are indexed 0..4, and a host address never passes the top (R34, R35, R76). -/
abbrev ChannelsInRange (s : State) : Prop :=
  (s.txch.sel = .tmplRd ∨ s.txch.sel = .tmplWr → s.txch.minc = true ∧ s.txch.addr.toNat + s.txch.cnt.toNat = 5) ∧
  (s.rxch.sel = .hdr → s.rxch.minc = true ∧ s.rxch.addr.toNat + s.rxch.cnt.toNat = 5) ∧
  (s.txch.sel = .mem → s.txch.minc = true ∧ s.txch.addr.toNat + s.txch.cnt.toNat ≤ Config.addrSpace) ∧
  (s.rxch.sel = .mem → s.rxch.minc = true ∧ s.rxch.addr.toNat + s.rxch.cnt.toNat ≤ Config.addrSpace)

/-- Which buffers the channels serve in each phase, enabled throughout a sequence (R171 to R173). -/
abbrev ChannelsFollowPhase (s : State) : Prop :=
  (s.bus = .busy → s.txch.en = true) ∧
  (phase s = some .txHdr → s.txch.sel = .tmplWr ∧ s.rxch.sel = .hdr) ∧
  (phase s = some .rxHdr → s.txch.sel = .tmplRd ∧ s.rxch.sel = .hdr) ∧
  (phase s = some .txPayMore ∨ phase s = some .txPayLast → s.txch.sel = .mem ∧ s.rxch.sel = .sink) ∧
  (phase s = some .rxPayMore ∨ phase s = some .rxPayLast ∨ phase s = some .rxWaitBuf →
    s.txch.sel = .dummy ∧ s.rxch.sel = .mem)

/-- A completion latch means that the armed burst has moved entirely (R176, R178); while the next buffer is awaited the
receive completion has been served (R238). -/
abbrev LatchesMeanDone (s : State) : Prop :=
  (s.tctx = true → s.txch.cnt = 0) ∧ (s.tcrx = true → s.rxch.cnt = 0) ∧
  (phase s = some .rxWaitBuf → s.tcrx = false ∧ s.rxch.cnt = 0)

/-- The whole invariant: R41, the clauses it needs, and the canonical form of memory. -/
abbrev StateInv (s : State) : Prop :=
  SpecInv s ∧ IdleIsCanonical s ∧ TimerInsideSequence s ∧ BusyIsInitialised s ∧ TxContextFits s ∧ RxContextFits s ∧
    PendingFits s ∧ ChannelsInRange s ∧ ChannelsFollowPhase s ∧ LatchesMeanDone s ∧ Memory.wf s.mem = true

/-! ### The transition table (R248) -/

/-- The entries of R248: whether an operation that gives a next state may take the first phase to the second. RESET goes
to `IDLE` from everywhere and INIT is `IDLE` to `IDLE`; XCHG, RDYLVL, TMREXP, TIMEOUT and the header rows keep the
phase. -/
def tableAllows (i : Instr) (p q : Phase) : Bool :=
  match i with
  | .reset => q == .idle
  | .init _ => p == .idle && q == .idle
  | .send _ _ => if p == .idle then q == .txHdr else q == p
  | .evtreq _ _ =>
    match p with
    | .rxHdr => false
    | .rxPayMore => false
    | .rxPayLast => false
    | .rxWaitBuf => q == .rxPayMore || q == .rxPayLast
    | _ => q == p
  | .rdyirq =>
    match p with
    | .idle => q == .rxHdr
    | .txHdr => q == .txHdr
    | .txPayMore => q == .txPayMore
    | .txPayLast => q == .txPayLast
    | _ => false
  | .rxdone =>
    match p with
    | .idle => false
    | .txHdr => q == .txPayMore || q == .txPayLast || q == .txHdr
    | .txPayMore => q == .txPayMore
    | .txPayLast => q == .txPayLast
    | .rxHdr => q == .rxPayMore || q == .rxPayLast || q == .rxHdr || q == .txHdr || q == .idle
    | .rxPayMore => q == .rxWaitBuf
    | .rxPayLast => q == .txHdr || q == .idle
    | .rxWaitBuf => false
  | .txdone =>
    match p with
    | .idle => false
    | .txPayMore => q == .txHdr
    | .txPayLast => q == .txHdr || q == .idle
    | _ => q == p
  | .timeout => q == p
  | .xchg _ => q == p
  | .rdylvl _ => q == p
  | .tmrexp => q == p
  | .hdrRdRsp _ _ _ _ => q == p
  | .hdrWrRsp _ _ _ _ => q == p
  | .hdrRdCmd _ => q == p
  | .hdrWrCmd _ => q == p

/-! ### Sequences of effects -/

/-- The chip-select level after a list of effects, none if some effect repeats the level it finds (S-P3 of
95_test_vectors.md: "never asserted twice without an intervening release"). -/
def csAfter (level : Bool) (es : List Effect) : Option Bool :=
  match es with
  | [] => some level
  | .cs v :: rest => if v = level then none else csAfter v rest
  | _ :: rest => csAfter level rest

/-- The vote `d` after a list of effects, none if it is cast twice or withdrawn twice (R297). -/
def voteAfter (d : Way) (held : Bool) (es : List Effect) : Option Bool :=
  match es with
  | [] => some held
  | .lpmRequest e :: rest => if e = d then (if held then none else voteAfter d true rest) else voteAfter d held rest
  | .lpmAllow e :: rest => if e = d then (if held then voteAfter d false rest else none) else voteAfter d held rest
  | _ :: rest => voteAfter d held rest

/-! ### Rounds of bursts (R157) -/

/-- The bursts of a transmit message with `rem` bytes left under successive windows (R234, R241, R154). -/
def txRounds (windows : List Len) (rem : Len) : List Burst :=
  match windows with
  | [] => []
  | w :: rest => if (txBurst w rem).more then txBurst w rem :: txRounds rest (txBurst w rem).rem else [txBurst w rem]

/-- The bursts of a received event with `total` bytes left under successive buffer sizes (R204, R205, R155). -/
def rxRounds (sizes : List Len) (total : Len) : List Burst :=
  match sizes with
  | [] => []
  | z :: rest => if (rxBurst total z).more then rxBurst total z :: rxRounds rest (rxBurst total z).rem else [rxBurst total z]

/-- The bytes a list of bursts moves. -/
def movedBytes (bs : List Burst) : Nat := (bs.map fun b => b.size.toNat).sum

/-! ### Service order (R289) -/

/-- Serve one source if its service is enabled, and go on otherwise; none if the service stops in any way but a refusal.
-/
def serveIfEnabled (i : Instr) (s : State) : Option State :=
  match exec i s with
  | .next t => some t
  | .refused _ => some s
  | .fault _ => none

/-- Serve the first, then the second. -/
def serveBoth (i j : Instr) (s : State) : Option State := (serveIfEnabled i s).bind (serveIfEnabled j)

/-! ### Which instructions write what, and which close a sequence -/

/-- RESET and INIT, which write every field of the table R43. -/
def loadsReset (i : Instr) : Bool :=
  match i with
  | .reset => true
  | .init _ => true
  | .send _ _ => false
  | .evtreq _ _ => false
  | .rdyirq => false
  | .txdone => false
  | .rxdone => false
  | .timeout => false
  | .xchg _ => false
  | .rdylvl _ => false
  | .tmrexp => false
  | .hdrRdRsp _ _ _ _ => false
  | .hdrWrRsp _ _ _ _ => false
  | .hdrRdCmd _ => false
  | .hdrWrCmd _ => false

/-- XCHG and the header rows, which move bytes through the channels (R175, log 7). -/
def movesBytes (i : Instr) : Bool :=
  match i with
  | .xchg _ => true
  | .hdrRdRsp _ _ _ _ => true
  | .hdrWrRsp _ _ _ _ => true
  | .hdrRdCmd _ => true
  | .hdrWrCmd _ => true
  | .init _ => false
  | .send _ _ => false
  | .evtreq _ _ => false
  | .rdyirq => false
  | .txdone => false
  | .rxdone => false
  | .timeout => false
  | .rdylvl _ => false
  | .tmrexp => false
  | .reset => false

/-- The closing cases (R249 items 3 and 5; R235, R237, R242): TXDONE in `TX_PAY_LAST`; RXDONE in `RX_PAY_LAST`, or in
`RX_HDR` on a header of count 0 with the line down. -/
def Closes (i : Instr) (s : State) : Prop :=
  (i = .txdone ∧ phase s = some .txPayLast) ∨
  (i = .rxdone ∧ (phase s = some .rxPayLast ∨
    (phase s = some .rxHdr ∧ leCount s.hdrRx.b3 s.hdrRx.b4 = 0 ∧ s.rdy = false)))

/-! ### Where a transmit message ends (R25) -/

/-- One past the last byte of the open transmit message: `TX.ptr + TX.rem` while a header is exchanged, `TX.ptr +
TX.burst + TX.rem` while a payload burst is armed (R25). -/
def txEnd (s : State) : Option Nat :=
  match phase s with
  | some .txHdr => some (s.tx.ptr.toNat + s.tx.rem.toNat)
  | some .txPayMore => some (s.tx.ptr.toNat + s.tx.burst.toNat + s.tx.rem.toNat)
  | some .txPayLast => some (s.tx.ptr.toNat + s.tx.burst.toNat + s.tx.rem.toNat)
  | _ => none

/-! ### Comparing outcomes -/

/-- The same outcome with its next state changed by `f`. -/
def mapNext (f : State → State) (o : Host.Outcome State Fault Refusal) : Host.Outcome State Fault Refusal :=
  match o with
  | .next t => .next (f t)
  | .fault r => .fault r
  | .refused r => .refused r

end Sys2Proof.Machine
end

