-- ==== Sys2Proof/Certificates/Slice0/Obligations.lean ====
section
/-! DEFINITION. The statements for the provers. Those that rest on a decision the spec marks as its own, or on a choice of
the model, say so and name the log entry. -/

open Sys2Proof Sys2Proof.Machine

/-! ### Reset and encoding -/

/-- The power-on state: the table of R43 with RDY = 0 and MEM empty (R330). The source fixes only BUS, PEND.valid, CS and
the two enables; the other values are the spec's own decisions (D4 to D17, log 16). -/
def Obligations.ResetStateMatchesTable : Prop :=
  State.reset.bus = .available ∧ State.reset.pend.valid = false ∧ State.reset.cs = false ∧
  State.reset.txch = ⟨.dummy, 0, 0, false, false⟩ ∧ State.reset.rxch = ⟨.sink, 0, 0, false, false⟩ ∧
  State.reset.inited = false ∧ State.reset.mode = 0 ∧ State.reset.dir = .none ∧ State.reset.rxev = .endOfTransfer ∧
  State.reset.rxwait = false ∧ State.reset.tx = ⟨0, 0, 0, false, false⟩ ∧ State.reset.rx = ⟨0, 0, 0, 0, false, false⟩ ∧
  State.reset.pend.ptr = 0 ∧ State.reset.pend.len = 0 ∧ State.reset.rdy = false ∧ State.reset.rdypend = false ∧
  State.reset.rdyie = false ∧ State.reset.holdTx = false ∧ State.reset.holdRx = false ∧ State.reset.tmrarm = false ∧
  State.reset.topend = false ∧ State.reset.toflag = false ∧ State.reset.tctx = false ∧ State.reset.tcrx = false ∧
  State.reset.hdrRx = ⟨0, 0, 0, 0, 0⟩ ∧ State.reset.rxres = 0 ∧ State.reset.mem = []

/-- The invariant holds at power-on: R41's nine items, and the further clauses of the model (DEDUCED, log 21). It rests on
the reset values of R43, most of them the spec's own decisions (log 16). -/
def Obligations.ResetSatisfiesInvariant : Prop := StateInv State.reset

/-- Encoding and then decoding gives back every instruction, with every operand (R101 to R103, R106 to R108). The layout
of the operation word is the spec's own decision (D1). -/
def Obligations.DecodeOfEncodeIsIdentity : Prop := ∀ i : Instr, decode (encode i) = .ok i

/-- Every symbol that decodes is the encoding of what it decodes to, so no two symbols decode to one instruction
(R101 to R108, D1). -/
def Obligations.EncodeOfDecodeIsIdentity : Prop := ∀ (x : Symbol) (i : Instr), decode x = .ok i → encode i = x

/-- A word decodes exactly when it is of a row of the opcode table, and no word is of two rows (opcode_table.json, D1). -/
def Obligations.DecoderAgreesWithOpcodeTable : Prop :=
  (∀ w : OpWord, (∃ i, decodeWord w = .ok i) ↔ ∃ r ∈ opTable, OpRow.covers r w = true) ∧
  (∀ w : OpWord, ∀ r ∈ opTable, ∀ r' ∈ opTable, OpRow.covers r w = true → OpRow.covers r' w = true → r = r')

/-- A word with a reserved op, a non-zero z1, or a non-zero bit in a field its operation does not use, is refused
InvalidWord in every state (section 2 of 30_encoding.md, decision D1). -/
def Obligations.InvalidWordsAreRefused : Prop :=
  ∀ (s : State) (w : OpWord) (rest : List Input), s.input = .sym (.op w) :: rest →
    ((fieldOp w = 0x0 ∨ fieldOp w = 0x4 ∨ fieldOp w = 0x5 ∨ fieldOp w = 0x6 ∨ fieldOp w = 0x7) ∨
      fieldZ1 w ≠ 0 ∨
      (fieldOp w = 0x1 ∧ (fieldLen w ≠ 0 ∨ fieldBuf w ≠ 0)) ∨
      ((fieldOp w = 0x2 ∨ fieldOp w = 0x3) ∧ fieldMode w ≠ 0) ∨
      ((fieldOp w = 0x8 ∨ fieldOp w = 0x9 ∨ fieldOp w = 0xA ∨ fieldOp w = 0xB ∨ fieldOp w = 0xE ∨ fieldOp w = 0xF) ∧
        (fieldMode w ≠ 0 ∨ fieldLen w ≠ 0 ∨ fieldBuf w ≠ 0)) ∨
      (fieldOp w = 0xC ∧ (fieldMode w ≠ 0 ∨ fieldLen w ≠ 0 ∨ 256 ≤ (fieldBuf w).toNat)) ∨
      (fieldOp w = 0xD ∧ (fieldMode w ≠ 0 ∨ fieldLen w ≠ 0 ∨ 2 ≤ (fieldBuf w).toNat))) →
    step s = .refused .invalidWord

/-- A few words written out from R101 and R103 decode to the operations they stand for; one header string per layout
(R106, R107). The layout of the word is the spec's own decision (D1). -/
def Obligations.SampleSymbolsDecode : Prop :=
  decode (.op 0x10FF000000000000) = .ok (.init 255) ∧
  decode (.op 0x2000012C20001000) = .ok (.send 0x20001000 300) ∧
  decode (.op 0x3000FFFF00000000) = .ok (.evtreq 0 65535) ∧
  decode (.op 0xC0000000000000FF) = .ok (.xchg 0xFF) ∧
  decode (.op 0xD000000000000001) = .ok (.rdylvl true) ∧
  decode (.op 0xA000000000000000) = .ok .rxdone ∧
  decode (.header .rdRsp [0x02, 0xAA, 0x55, 0x34, 0x12]) = .ok (.hdrRdRsp 0x02 0xAA 0x55 0x1234) ∧
  decode (.header .wrRsp [0x02, 0x2C, 0x01, 0xDE, 0xAD]) = .ok (.hdrWrRsp 0x02 300 0xDE 0xAD)

/-- When the oldest input decodes, the step is the instruction executed in the state without that input (R13; that the
agents' choices stand in a list is the model's choice, log 1). -/
def Obligations.StepRunsTheDecodedInstruction : Prop :=
  ∀ (s : State) (x : Symbol) (rest : List Input) (i : Instr),
    s.input = .sym x :: rest → decode x = .ok i → step s = exec i { s with input := rest }

/-! ### Header codec and burst arithmetic -/

/-- The count and the state code of a received header (R110). -/
def Obligations.HeaderCountIsLittleEndian : Prop :=
  ∀ h : Hdr5,
    (hdrParse .rx h).2.toNat = h.b3.toNat + 256 * h.b4.toNat ∧ (hdrParse .tx h).2.toNat = h.b1.toNat + 256 * h.b2.toNat ∧
    (hdrParse .rx h).1 = h.b0 ∧ (hdrParse .tx h).1 = h.b0

/-- `Go` and `Classify` (R152, R153), for every READY_CODE. -/
def Obligations.ClassifyDecidesByCodeCountAndLine : Prop :=
  ∀ (p : Params) (d : Way) (state : Byte) (count : Len) (rdy : Bool),
    (go p state count = true ↔ state = p.readyCode ∧ 0 < count.toNat) ∧
    (classify p d state count rdy = .accept ↔ go p state count = true) ∧
    (classify p d state count rdy = .spurious ↔ d = .rx ∧ count = 0 ∧ rdy = false) ∧
    (classify p d state count rdy = .retry ↔ go p state count = false ∧ ¬(d = .rx ∧ count = 0 ∧ rdy = false))

/-- `TxBurst` and `RxBurst` on numbers (R154, R155), with their properties, which the spec marks as its own inference from
the definition: the bounds of the burst, and no remainder exactly when there is no more. -/
def Obligations.BurstSizesAreMinima : Prop :=
  ∀ a b : Len, 0 < a.toNat → 0 < b.toNat →
    ((txBurst a b).size.toNat = min a.toNat b.toNat ∧ ((txBurst a b).more = true ↔ a.toNat < b.toNat) ∧
      (txBurst a b).rem.toNat = b.toNat - min a.toNat b.toNat ∧
      1 ≤ (txBurst a b).size.toNat ∧ (txBurst a b).size.toNat ≤ b.toNat ∧
      ((txBurst a b).rem = 0 ↔ (txBurst a b).more = false)) ∧
    ((rxBurst a b).size.toNat = min a.toNat b.toNat ∧ ((rxBurst a b).more = true ↔ b.toNat < a.toNat) ∧
      (rxBurst a b).rem.toNat = a.toNat - min a.toNat b.toNat ∧
      1 ≤ (rxBurst a b).size.toNat ∧ (rxBurst a b).size.toNat ≤ b.toNat ∧
      ((rxBurst a b).rem = 0 ↔ (rxBurst a b).more = false))

/-- Conservation, transmit: under windows of at least 1 the bursts are at least 1, never move more than the message, and
with enough windows move exactly the message, the last burst being the only one without `more` (R157, R154). -/
def Obligations.TransmitRoundsMoveTheMessage : Prop :=
  ∀ (windows : List Len) (rem : Len), (∀ w ∈ windows, 0 < w) → 0 < rem →
    (∀ b ∈ txRounds windows rem, 0 < b.size) ∧
    movedBytes (txRounds windows rem) ≤ rem.toNat ∧
    (rem.toNat ≤ windows.length →
      movedBytes (txRounds windows rem) = rem.toNat ∧
      ∃ pre last, txRounds windows rem = pre ++ [last] ∧ last.more = false ∧ ∀ b ∈ pre, b.more = true)

/-- Conservation, receive: the same of an event of `total` bytes delivered into buffers of at least 1 byte (R157, R155). -/
def Obligations.ReceiveRoundsMoveTheEvent : Prop :=
  ∀ (sizes : List Len) (total : Len), (∀ z ∈ sizes, 0 < z) → 0 < total →
    (∀ b ∈ rxRounds sizes total, 0 < b.size) ∧
    movedBytes (rxRounds sizes total) ≤ total.toNat ∧
    (total.toNat ≤ sizes.length →
      movedBytes (rxRounds sizes total) = total.toNat ∧
      ∃ pre last, rxRounds sizes total = pre ++ [last] ∧ last.more = false ∧ ∀ b ∈ pre, b.more = true)

/-! ### Procedures -/

/-- `CsAssert` and `CsRelease` write CS and emit one effect (R130, R131). -/
def Obligations.ChipSelectProceduresEmitTheLevel : Prop :=
  ∀ s : State,
    csAssert s = { s with cs := true, trace := s.trace ++ [.cs true] } ∧
    csRelease s = { s with cs := false, trace := s.trace ++ [.cs false] }

/-- `Flush`, `ArmHeader` and `ArmPayloadRx`: the channels they leave, the latches they clear, and nothing else (R170,
R171, R173). -/
def Obligations.ArmingLeavesTheChannelsOfTheRule : Prop :=
  ∀ (s : State) (p : Addr) (n : Len),
    flush s = { s with txch := { s.txch with en := false }, rxch := { s.rxch with en := false }, tctx := false, tcrx := false } ∧
    armHeader .rx s =
      { s with rxres := 0, txch := ⟨.tmplRd, 0, 5, true, true⟩, rxch := ⟨.hdr, 0, 5, true, true⟩, tctx := false, tcrx := false } ∧
    armHeader .tx s =
      { s with rxres := 0, txch := ⟨.tmplWr, 0, 5, true, true⟩, rxch := ⟨.hdr, 0, 5, true, true⟩, tctx := false, tcrx := false } ∧
    armPayloadRx p n s =
      { s with txch := ⟨.dummy, 0, n, false, true⟩, rxch := ⟨.mem, p, n, true, true⟩, tctx := false, tcrx := false }

/-! ### Host commands -/

/-- SEND in the Available arm is StartTx: the whole next state (R203). That starting the timer drops an unserviced expiry
(TOPEND) is the spec's decision D43 (R295), and the vote id its decision D14 (log 24). -/
def Obligations.SendWhileAvailableOpensTransmit : Prop :=
  ∀ (s : State) (buf : Addr) (len : Len),
    s.inited = true → len ≠ 0 → buf.toNat + len.toNat ≤ 2 ^ 32 → s.bus = .available →
    exec (.send buf len) s = .next { s with
      bus := .busy, dir := .tx, rxev := .checkHeaderForTransmit, rxwait := false, rdyie := false, cs := true,
      tmrarm := true, topend := false, holdTx := true,
      tx := { ptr := buf, rem := len, burst := 0, cont := false, valid := true },
      txch := ⟨.tmplWr, 0, 5, true, true⟩, rxch := ⟨.hdr, 0, 5, true, true⟩, tctx := false, tcrx := false, rxres := 0,
      trace := s.trace ++ [.cs true, .tmrStart, .lpmRequest .tx] }

/-- SEND in the Busy arm stores the request, over an earlier one, and does nothing else (R202, R284). -/
def Obligations.SendWhileBusyQueues : Prop :=
  ∀ (s : State) (buf : Addr) (len : Len),
    s.inited = true → len ≠ 0 → buf.toNat + len.toNat ≤ 2 ^ 32 → s.bus = .busy →
    exec (.send buf len) s = .next { s with pend := { valid := true, ptr := buf, len := len } }

/-- When SEND and EVTREQ are refused for their operands or before INIT, and for which reason (decisions D11, D34; the
order of the reasons is the pseudocode's, log 19). -/
def Obligations.HostCommandsRefuseBadOperands : Prop :=
  ∀ (s : State) (buf : Addr) (len : Len),
    (s.inited = false → exec (.send buf len) s = .refused .notInitialised ∧
      exec (.evtreq buf len) s = .refused .notInitialised) ∧
    (s.inited = true → len = 0 → exec (.send buf len) s = .refused .zeroLength ∧
      exec (.evtreq buf len) s = .refused .zeroLength) ∧
    (s.inited = true → len ≠ 0 → 2 ^ 32 < buf.toNat + len.toNat → exec (.send buf len) s = .refused .bufferWraps ∧
      exec (.evtreq buf len) s = .refused .bufferWraps)

/-- EVTREQ outside a receive sequence registers the buffer and rebuilds the latch from the line (R204 fresh arm, R136;
decision D27). -/
def Obligations.EvtreqArmsReception : Prop :=
  ∀ (s : State) (buf : Addr) (len : Len),
    s.inited = true → len ≠ 0 → buf.toNat + len.toNat ≤ 2 ^ 32 → ¬(s.bus = .busy ∧ s.dir = .rx) →
    exec (.evtreq buf len) s = .next { s with
      rx := { ptr := buf, size := len, rem := 0, burst := 0, cont := false, valid := true }
      rdypend := s.rdy, rdyie := true }

/-- EVTREQ while the next buffer is awaited programs the next burst at once, with no header and no effect (R204
continuation arm, R205; decision D9). -/
def Obligations.EvtreqContinuesTheEvent : Prop :=
  ∀ (s : State) (buf : Addr) (len : Len),
    s.inited = true → len ≠ 0 → buf.toNat + len.toNat ≤ 2 ^ 32 → s.bus = .busy → s.dir = .rx → s.rxwait = true →
    exec (.evtreq buf len) s = .next { s with
      rx := { ptr := buf, size := len, rem := (rxBurst s.rx.rem len).rem, burst := (rxBurst s.rx.rem len).size,
              cont := (rxBurst s.rx.rem len).more, valid := s.rx.valid }
      rxev := if (rxBurst s.rx.rem len).more then .continuePayload else .endOfTransfer
      rxwait := false
      txch := ⟨.dummy, 0, (rxBurst s.rx.rem len).size, false, true⟩
      rxch := ⟨.mem, buf, (rxBurst s.rx.rem len).size, true, true⟩, tctx := false, tcrx := false }

/-- EVTREQ while a header or a receive burst is in flight is refused (decision D35). -/
def Obligations.EvtreqRefusedWhileReceiving : Prop :=
  ∀ (s : State) (buf : Addr) (len : Len),
    s.inited = true → len ≠ 0 → buf.toNat + len.toNat ≤ 2 ^ 32 → s.bus = .busy → s.dir = .rx → s.rxwait = false →
    exec (.evtreq buf len) s = .refused .evtReqWhileRxActive

/-- INIT while Available gives the reset state, initialised, with the mode loaded, and keeps MEM, RDY and what is no state
of the machine; while Busy it is refused (R201; decisions D17, D33). -/
def Obligations.InitResetsWhileAvailable : Prop :=
  ∀ (s : State) (mode : Byte),
    (s.bus = .available → exec (.init mode) s = .next { State.reset with
      inited := true, mode := mode, mem := s.mem, rdy := s.rdy, par := s.par,
      trace := s.trace, input := s.input, draws := s.draws }) ∧
    (s.bus = .busy → exec (.init mode) s = .refused .initWhileBusy)

/-- RESET, from every state: what it emits and the state it leaves (R200; decisions D17, D32). -/
def Obligations.ResetReleasesEverything : Prop :=
  ∀ s : State, exec .reset s = .next { State.reset with
    mem := s.mem, rdy := s.rdy, par := s.par, input := s.input, draws := s.draws,
    trace := s.trace ++ (if s.cs then [.cs false] else []) ++ (if s.holdTx then [.lpmAllow .tx] else []) ++
      (if s.holdRx then [.lpmAllow .rx] else []) ++ (if s.tmrarm then [.tmrStop] else []) }

/-! ### The ready line -/

/-- RDYLVL in every state: the level, and the latch on a rising edge whatever the enable (R134; decision D26). -/
def Obligations.RdylvlLatchesRisingEdges : Prop :=
  ∀ s : State,
    exec (.rdylvl true) s = .next { s with rdy := true, rdypend := if s.rdy = false then true else s.rdypend } ∧
    exec (.rdylvl false) s = .next { s with rdy := false }

/-- RDYIRQ while Available is StartRx: the whole next state (R230, R231). It rests on the spec's decisions D28, D36 and
D37, on D43 for the dropped expiry (R295) and on D14 for the vote id (log 24). -/
def Obligations.RdyirqOpensReceive : Prop :=
  ∀ s : State, s.inited = true → s.rdypend = true → s.rdyie = true → s.bus = .available →
    exec .rdyirq s = .next { s with
      bus := .busy, dir := .rx, rxev := .checkHeaderForReceive, rxwait := false, rdypend := false, rdyie := false,
      cs := true, tmrarm := true, topend := false, holdRx := true,
      txch := ⟨.tmplRd, 0, 5, true, true⟩, rxch := ⟨.hdr, 0, 5, true, true⟩, tctx := false, tcrx := false, rxres := 0,
      trace := s.trace ++ [.cs true, .tmrStart, .lpmRequest .rx] }

/-- RDYIRQ while Busy clears its latch and nothing else (R230; decision D36). -/
def Obligations.RdyirqIgnoredWhileBusy : Prop :=
  ∀ s : State, s.inited = true → s.rdypend = true → s.rdyie = true → s.bus = .busy →
    exec .rdyirq s = .next { s with rdypend := false }

/-- The four services are refused NotInitialised before INIT, and NotPending without their latch (and, for RDYIRQ, its
enable) (R285, R286; decisions D5, D11). -/
def Obligations.ServicesNeedTheirLatch : Prop :=
  ∀ s : State,
    (s.inited = false → exec .rdyirq s = .refused .notInitialised ∧ exec .txdone s = .refused .notInitialised ∧
      exec .rxdone s = .refused .notInitialised ∧ exec .timeout s = .refused .notInitialised) ∧
    (s.inited = true →
      (s.rdypend = false ∨ s.rdyie = false → exec .rdyirq s = .refused .notPending) ∧
      (s.tctx = false → exec .txdone s = .refused .notPending) ∧
      (s.tcrx = false → exec .rxdone s = .refused .notPending) ∧
      (s.topend = false → exec .timeout s = .refused .notPending))

/-! ### RXDONE -/

/-- A read header that is ready with a non-zero count programs the receive burst (R233, R205). -/
def Obligations.AcceptedReadHeaderProgramsTheBurst : Prop :=
  ∀ s : State, s.inited = true → s.tcrx = true → phase s = some .rxHdr → s.hdrRx.b0 = s.par.readyCode →
    leCount s.hdrRx.b3 s.hdrRx.b4 ≠ 0 →
    exec .rxdone s = .next { s with
      rx := { s.rx with
        rem := (rxBurst (leCount s.hdrRx.b3 s.hdrRx.b4) s.rx.size).rem
        burst := (rxBurst (leCount s.hdrRx.b3 s.hdrRx.b4) s.rx.size).size
        cont := (rxBurst (leCount s.hdrRx.b3 s.hdrRx.b4) s.rx.size).more }
      rxev := if (rxBurst (leCount s.hdrRx.b3 s.hdrRx.b4) s.rx.size).more then .continuePayload else .endOfTransfer
      rxwait := false
      txch := ⟨.dummy, 0, (rxBurst (leCount s.hdrRx.b3 s.hdrRx.b4) s.rx.size).size, false, true⟩
      rxch := ⟨.mem, s.rx.ptr, (rxBurst (leCount s.hdrRx.b3 s.hdrRx.b4) s.rx.size).size, true, true⟩
      tctx := false, tcrx := false }

/-- A write header that is ready with a non-zero window programs the transmit burst (R234; the receive side of the burst,
R172, is decision D29). -/
def Obligations.AcceptedWriteHeaderProgramsTheBurst : Prop :=
  ∀ s : State, s.inited = true → s.tcrx = true → phase s = some .txHdr → s.hdrRx.b0 = s.par.readyCode →
    leCount s.hdrRx.b1 s.hdrRx.b2 ≠ 0 →
    exec .rxdone s = .next { s with
      tx := { s.tx with
        rem := (txBurst (leCount s.hdrRx.b1 s.hdrRx.b2) s.tx.rem).rem
        burst := (txBurst (leCount s.hdrRx.b1 s.hdrRx.b2) s.tx.rem).size
        cont := (txBurst (leCount s.hdrRx.b1 s.hdrRx.b2) s.tx.rem).more }
      rxev := if (txBurst (leCount s.hdrRx.b1 s.hdrRx.b2) s.tx.rem).more then .continuePayload else .endOfTransfer
      txch := ⟨.mem, s.tx.ptr, (txBurst (leCount s.hdrRx.b1 s.hdrRx.b2) s.tx.rem).size, true, true⟩
      rxch := ⟨.sink, 0, (txBurst (leCount s.hdrRx.b1 s.hdrRx.b2) s.tx.rem).size, false, true⟩
      tctx := false, tcrx := false }

/-- A header that is not ready is retried: the chip-select bounce and the same header exchange again, nothing else (R236);
on the read path only if it is not the spurious wake. -/
def Obligations.NotReadyHeaderIsRetried : Prop :=
  ∀ s : State, s.inited = true → s.tcrx = true →
    (phase s = some .txHdr → (s.hdrRx.b0 ≠ s.par.readyCode ∨ leCount s.hdrRx.b1 s.hdrRx.b2 = 0) →
      exec .rxdone s = .next { s with
        cs := true, txch := ⟨.tmplWr, 0, 5, true, true⟩, rxch := ⟨.hdr, 0, 5, true, true⟩, tctx := false, tcrx := false,
        rxres := 0, trace := s.trace ++ [.cs false, .cs true] }) ∧
    (phase s = some .rxHdr → (s.hdrRx.b0 ≠ s.par.readyCode ∨ leCount s.hdrRx.b3 s.hdrRx.b4 = 0) →
      ¬(leCount s.hdrRx.b3 s.hdrRx.b4 = 0 ∧ s.rdy = false) →
      exec .rxdone s = .next { s with
        cs := true, txch := ⟨.tmplRd, 0, 5, true, true⟩, rxch := ⟨.hdr, 0, 5, true, true⟩, tctx := false, tcrx := false,
        rxres := 0, trace := s.trace ++ [.cs false, .cs true] })

/-- A read header with count 0 and the line idle closes the sequence with no notification; a queued request starts in the
same step, otherwise reception is re-enabled if a buffer is armed (R235, R245, R246; decisions D38, D43, D44). -/
def Obligations.SpuriousWakeClosesTheSequence : Prop :=
  ∀ s c : State, s.inited = true → s.tcrx = true → phase s = some .rxHdr → leCount s.hdrRx.b3 s.hdrRx.b4 = 0 →
    s.rdy = false →
    c = { s with
      bus := .available, dir := .none, rxev := .endOfTransfer, rxwait := false, cs := false, holdRx := false,
      tmrarm := false, topend := false, txch := { s.txch with en := false }, rxch := { s.rxch with en := false },
      tctx := false, tcrx := false, trace := s.trace ++ [.cs false, .lpmAllow .rx, .tmrStop] } →
    (s.pend.valid = true → exec .rxdone s = .next (startTx s.pend.ptr s.pend.len { c with pend := ⟨false, 0, 0⟩ })) ∧
    (s.pend.valid = false → s.rx.valid = true → exec .rxdone s = .next { c with rdypend := s.rdy, rdyie := true }) ∧
    (s.pend.valid = false → s.rx.valid = false → exec .rxdone s = .next c)

/-- The end of the last receive burst closes the sequence, clears the context, notifies the host of the burst's size, and
starts a queued request in the same step (R237, R245, R246; decision D43). -/
def Obligations.ReceiveEndNotifiesAndCloses : Prop :=
  ∀ s c : State, s.inited = true → s.tcrx = true → phase s = some .rxPayLast →
    c = { s with
      bus := .available, dir := .none, rxev := .endOfTransfer, rxwait := false, cs := false, holdRx := false,
      tmrarm := false, topend := false, txch := { s.txch with en := false }, rxch := { s.rxch with en := false },
      tctx := false, tcrx := false, rx := ⟨0, 0, 0, 0, false, false⟩,
      trace := s.trace ++ [.cs false, .lpmAllow .rx, .tmrStop, .notifyRx s.rx.burst false] } →
    (s.pend.valid = true → exec .rxdone s = .next (startTx s.pend.ptr s.pend.len { c with pend := ⟨false, 0, 0⟩ })) ∧
    (s.pend.valid = false → exec .rxdone s = .next c)

/-- The end of a receive burst that the event outlasts advances the context, waits for a buffer and notifies the host;
chip-select, vote, timer and channels stay (R238; decision D39). The pointer advances by the burst; at the top of the
address space it is a free value, of which nothing is stated (R76, R156; log 28). -/
def Obligations.ReceiveContinuationWaitsForABuffer : Prop :=
  ∀ s : State, s.inited = true → s.tcrx = true → phase s = some .rxPayMore →
    ∃ ptr : Addr,
      exec .rxdone s = .next { s with
        rx := { s.rx with ptr := ptr, size := s.rx.size - s.rx.burst }
        rxwait := true, tcrx := false, trace := s.trace ++ [.notifyRx s.rx.burst true] } ∧
      (s.rx.ptr.toNat + s.rx.burst.toNat < 2 ^ 32 → ptr.toNat = s.rx.ptr.toNat + s.rx.burst.toNat)

/-- In the other listed phases RXDONE clears its latch and changes nothing else (R239; decision D40); a quadruple no phase
names is the model's fault (log 11). -/
def Obligations.RxdoneOtherwiseClearsItsLatch : Prop :=
  ∀ s : State, s.inited = true → s.tcrx = true →
    ((phase s = some .txPayMore ∨ phase s = some .txPayLast ∨ phase s = some .rxWaitBuf ∨ phase s = some .idle) →
      exec .rxdone s = .next { s with tcrx := false }) ∧
    (phase s = none → exec .rxdone s = .fault .illegalPhase)

/-! ### TXDONE -/

/-- The end of a transmit burst that the message outlasts: the pointer advances, the bounce, the next header exchange
(R241). That TXDONE, not RXDONE, completes a transmit burst is the spec's decision D41. In every state of the invariant the
pointer's sum is below the top of the address space (R156); beyond it, in no reachable state, it is a free value (log 28).
-/
def Obligations.TransmitContinuationOpensTheNextRound : Prop :=
  ∀ s : State, s.inited = true → s.tctx = true → phase s = some .txPayMore →
    ∃ ptr : Addr,
      exec .txdone s = .next { s with
        tx := { s.tx with ptr := ptr }
        rxev := .checkHeaderForTransmit, cs := true,
        txch := ⟨.tmplWr, 0, 5, true, true⟩, rxch := ⟨.hdr, 0, 5, true, true⟩, tctx := false, tcrx := false, rxres := 0,
        trace := s.trace ++ [.cs false, .cs true] } ∧
      (s.tx.ptr.toNat + s.tx.burst.toNat < 2 ^ 32 → ptr.toNat = s.tx.ptr.toNat + s.tx.burst.toNat) ∧
      (StateInv s → s.tx.ptr.toNat + s.tx.burst.toNat < 2 ^ 32)

/-- The end of the last transmit burst closes the sequence, clears the context and notifies the host; then a queued
request starts, or reception is re-enabled if a buffer is armed (R242, R245, R246; decisions D41 to D44). -/
def Obligations.TransmitEndNotifiesAndCloses : Prop :=
  ∀ s c : State, s.inited = true → s.tctx = true → phase s = some .txPayLast →
    c = { s with
      bus := .available, dir := .none, rxev := .endOfTransfer, rxwait := false, cs := false, holdTx := false,
      tmrarm := false, topend := false, txch := { s.txch with en := false }, rxch := { s.rxch with en := false },
      tctx := false, tcrx := false, tx := ⟨0, 0, 0, false, false⟩,
      trace := s.trace ++ [.cs false, .lpmAllow .tx, .tmrStop, .notifyTx] } →
    (s.pend.valid = true → exec .txdone s = .next (startTx s.pend.ptr s.pend.len { c with pend := ⟨false, 0, 0⟩ })) ∧
    (s.pend.valid = false → s.rx.valid = true → exec .txdone s = .next { c with rdypend := s.rdy, rdyie := true }) ∧
    (s.pend.valid = false → s.rx.valid = false → exec .txdone s = .next c)

/-- In the other listed phases TXDONE clears its latch and changes nothing else (R243; decision D41); a quadruple no phase
names is the model's fault (log 11). -/
def Obligations.TxdoneOtherwiseClearsItsLatch : Prop :=
  ∀ s : State, s.inited = true → s.tctx = true →
    ((phase s = some .txHdr ∨ phase s = some .rxHdr ∨ phase s = some .rxPayMore ∨ phase s = some .rxPayLast ∨
        phase s = some .rxWaitBuf ∨ phase s = some .idle) →
      exec .txdone s = .next { s with tctx := false }) ∧
    (phase s = none → exec .txdone s = .fault .illegalPhase)

/-! ### The timer -/

/-- TMREXP while the timer is armed; refused otherwise (R247). -/
def Obligations.TmrexpExpiresAnArmedTimer : Prop :=
  ∀ s : State,
    (s.tmrarm = true → exec .tmrexp s = .next { s with tmrarm := false, topend := true }) ∧
    (s.tmrarm = false → exec .tmrexp s = .refused .notArmed)

/-- TIMEOUT reports and changes nothing else (R244). That the block stays as it is after a timeout is the spec's own
decision D46 (R283, log 24). -/
def Obligations.TimeoutReportsAndChangesNothingElse : Prop :=
  ∀ s : State, s.inited = true →
    (s.topend = true → exec .timeout s = .next { s with
      topend := false, toflag := true, trace := s.trace ++ [.notifyTimeout] }) ∧
    (s.topend = false → exec .timeout s = .refused .notPending)

/-! ### The byte exchange -/

/-- XCHG while it is enabled, for every source and destination: one byte each way, the channels and latches, and nothing
else; a byte that nothing has written is a free value (R175, R75; decisions D30, D31; log 6, log 10). An address with
increment on goes up by 1; past the highest address it is a free value, of which nothing is stated (R76, log 28). -/
def Obligations.XchgMovesOneByteEachWay : Prop :=
  ∀ (s : State) (miso : Byte),
    s.cs = true → s.txch.en = true → s.rxch.en = true → s.txch.cnt ≠ 0 → s.rxch.cnt ≠ 0 →
    (s.txch.sel = .tmplRd ∨ s.txch.sel = .tmplWr → s.txch.addr.toNat < 5) →
    (s.rxch.sel = .hdr → s.rxch.addr.toNat < 5) →
    ∃ (mosi : Byte) (hdr : Hdr5) (mem : Memory) (draws : Nat) (txAddr rxAddr : Addr),
      exec (.xchg miso) s = .next { s with
        txch := { s.txch with addr := txAddr, cnt := s.txch.cnt - 1 }
        rxch := { s.rxch with addr := rxAddr, cnt := s.rxch.cnt - 1 }
        tctx := s.tctx || s.txch.cnt == 1, tcrx := s.tcrx || s.rxch.cnt == 1
        hdrRx := hdr, mem := mem, draws := draws, trace := s.trace ++ [.wire mosi miso] } ∧
      (s.txch.minc = false → txAddr = s.txch.addr) ∧ (s.rxch.minc = false → rxAddr = s.rxch.addr) ∧
      (s.txch.minc = true → s.txch.addr.toNat + 1 < 2 ^ 32 → txAddr.toNat = s.txch.addr.toNat + 1) ∧
      (s.rxch.minc = true → s.rxch.addr.toNat + 1 < 2 ^ 32 → rxAddr.toNat = s.rxch.addr.toNat + 1) ∧
      (s.txch.sel = .tmplRd → (hdrList s.par.tmplRd)[s.txch.addr.toNat]? = some mosi) ∧
      (s.txch.sel = .tmplWr → (hdrList s.par.tmplWr)[s.txch.addr.toNat]? = some mosi) ∧
      (s.txch.sel = .dummy → mosi = s.par.dummyTx) ∧
      (s.txch.sel = .mem → ∀ v, Memory.read? s.mem s.txch.addr.toNat = some v → mosi = v) ∧
      (s.txch.sel = .mem → Memory.read? s.mem s.txch.addr.toNat = none →
        mosi = Config.unwrittenByte s.draws ∧ draws = s.draws + 1) ∧
      (¬(s.txch.sel = .mem ∧ Memory.read? s.mem s.txch.addr.toNat = none) → draws = s.draws) ∧
      (s.rxch.sel = .hdr → hdrList hdr = (hdrList s.hdrRx).set s.rxch.addr.toNat miso) ∧
      (s.rxch.sel ≠ .hdr → hdr = s.hdrRx) ∧
      (s.rxch.sel = .mem → Memory.read? mem s.rxch.addr.toNat = some miso) ∧
      (∀ a : Nat, ¬(s.rxch.sel = .mem ∧ a = s.rxch.addr.toNat) → Memory.read? mem a = Memory.read? s.mem a)

/-- When XCHG is refused (R175), and when it faults: an index above 4 into a five-byte buffer, in no reachable state
(log 10). -/
def Obligations.XchgStopsWhereNotEnabled : Prop :=
  ∀ (s : State) (miso : Byte),
    ((s.cs = false ∨ s.txch.en = false ∨ s.rxch.en = false ∨ s.txch.cnt = 0 ∨ s.rxch.cnt = 0) →
      exec (.xchg miso) s = .refused .noExchange) ∧
    (s.cs = true → s.txch.en = true → s.rxch.en = true → s.txch.cnt ≠ 0 → s.rxch.cnt ≠ 0 →
      ((s.txch.sel = .tmplRd ∨ s.txch.sel = .tmplWr) ∧ 5 ≤ s.txch.addr.toNat ∨
        s.rxch.sel = .hdr ∧ 5 ≤ s.rxch.addr.toNat) →
      exec (.xchg miso) s = .fault .bufferIndex)

/-- A whole receive burst: after `n` bytes are armed into `p`, exactly `n` exchanges store the bytes in order at
`p .. p+n-1` and nowhere else, send the dummy byte each time, and leave both latches set (R176, R72). -/
def Obligations.ReceiveBurstStoresTheBytesInOrder : Prop :=
  ∀ (s : State) (p : Addr) (bytes : List Byte) (n : Len),
    s.cs = true → bytes.length = n.toNat → 0 < n.toNat → p.toNat + n.toNat ≤ 2 ^ 32 →
    ∃ t : State, exchangeAll bytes (armPayloadRx p n s) = .next t ∧
      (∀ k (h : k < bytes.length), Memory.read? t.mem (p.toNat + k) = some bytes[k]) ∧
      (∀ a : Nat, (a < p.toNat ∨ p.toNat + n.toNat ≤ a) → Memory.read? t.mem a = Memory.read? s.mem a) ∧
      t.trace = s.trace ++ bytes.map (fun b => .wire s.par.dummyTx b) ∧
      t.tctx = true ∧ t.tcrx = true ∧ t.txch.cnt = 0 ∧ t.rxch.cnt = 0 ∧ t.hdrRx = s.hdrRx ∧ t.draws = s.draws

/-- A whole transmit burst from written memory: exactly `n` exchanges send `MEM[p] .. MEM[p+n-1]` in order, discard what
comes back, and leave both latches set (R176, R72, R83). -/
def Obligations.TransmitBurstSendsTheBytesInOrder : Prop :=
  ∀ (s : State) (p : Addr) (payload back : List Byte) (n : Len),
    s.cs = true → payload.length = n.toNat → back.length = n.toNat → 0 < n.toNat → p.toNat + n.toNat ≤ 2 ^ 32 →
    (∀ k (h : k < payload.length), Memory.read? s.mem (p.toNat + k) = some payload[k]) →
    ∃ t : State, exchangeAll back (armPayloadTx p n s) = .next t ∧
      t.trace = s.trace ++ (payload.zip back).map (fun x => .wire x.1 x.2) ∧
      t.mem = s.mem ∧ t.hdrRx = s.hdrRx ∧ t.draws = s.draws ∧
      t.tctx = true ∧ t.tcrx = true ∧ t.txch.cnt = 0 ∧ t.rxch.cnt = 0

/-! ### The header formats as steps (the model's choice, log 7, log 8) -/

/-- A read-header response where a fresh read-header exchange is armed: five byte pairs, the master's from TMPL_RD, the
coprocessor's into HDR_RX (R106, R108, R113, R176; log 7). -/
def Obligations.ReadResponseFillsTheHeaderBuffer : Prop :=
  ∀ (s : State) (state r1 r2 : Byte) (count : Len),
    phase s = some .rxHdr → s.cs = true → s.txch = ⟨.tmplRd, 0, 5, true, true⟩ → s.rxch = ⟨.hdr, 0, 5, true, true⟩ →
    exec (.hdrRdRsp state r1 r2 count) s = .next { s with
      hdrRx := ⟨state, r1, r2, count.extractLsb' 0 8, count.extractLsb' 8 8⟩
      txch := ⟨.tmplRd, 5, 0, true, true⟩, rxch := ⟨.hdr, 5, 0, true, true⟩, tctx := true, tcrx := true
      trace := s.trace ++ [.wire s.par.tmplRd.b0 state, .wire s.par.tmplRd.b1 r1, .wire s.par.tmplRd.b2 r2,
        .wire s.par.tmplRd.b3 (count.extractLsb' 0 8), .wire s.par.tmplRd.b4 (count.extractLsb' 8 8)] }

/-- A write-header response where a fresh write-header exchange is armed (R107, R108, R113, R176; log 7). -/
def Obligations.WriteResponseFillsTheHeaderBuffer : Prop :=
  ∀ (s : State) (state : Byte) (count : Len) (r3 r4 : Byte),
    phase s = some .txHdr → s.cs = true → s.txch = ⟨.tmplWr, 0, 5, true, true⟩ → s.rxch = ⟨.hdr, 0, 5, true, true⟩ →
    exec (.hdrWrRsp state count r3 r4) s = .next { s with
      hdrRx := ⟨state, count.extractLsb' 0 8, count.extractLsb' 8 8, r3, r4⟩
      txch := ⟨.tmplWr, 5, 0, true, true⟩, rxch := ⟨.hdr, 5, 0, true, true⟩, tctx := true, tcrx := true
      trace := s.trace ++ [.wire s.par.tmplWr.b0 state, .wire s.par.tmplWr.b1 (count.extractLsb' 0 8),
        .wire s.par.tmplWr.b2 (count.extractLsb' 8 8), .wire s.par.tmplWr.b3 r3, .wire s.par.tmplWr.b4 r4] }

/-- A header command, the template sent where a fresh header exchange of its direction is armed: the same five byte pairs,
the coprocessor's being some five bytes (R108, R113, R299; log 8). -/
def Obligations.HeaderCommandsSendTheTemplate : Prop :=
  ∀ s : State, s.cs = true → s.rxch = ⟨.hdr, 0, 5, true, true⟩ →
    (phase s = some .rxHdr → s.txch = ⟨.tmplRd, 0, 5, true, true⟩ →
      ∃ (h : Hdr5) (draws : Nat), exec (.hdrRdCmd s.par.tmplRd) s = .next { s with
        hdrRx := h, draws := draws
        txch := ⟨.tmplRd, 5, 0, true, true⟩, rxch := ⟨.hdr, 5, 0, true, true⟩, tctx := true, tcrx := true
        trace := s.trace ++ [.wire s.par.tmplRd.b0 h.b0, .wire s.par.tmplRd.b1 h.b1, .wire s.par.tmplRd.b2 h.b2,
          .wire s.par.tmplRd.b3 h.b3, .wire s.par.tmplRd.b4 h.b4] }) ∧
    (phase s = some .txHdr → s.txch = ⟨.tmplWr, 0, 5, true, true⟩ →
      ∃ (h : Hdr5) (draws : Nat), exec (.hdrWrCmd s.par.tmplWr) s = .next { s with
        hdrRx := h, draws := draws
        txch := ⟨.tmplWr, 5, 0, true, true⟩, rxch := ⟨.hdr, 5, 0, true, true⟩, tctx := true, tcrx := true
        trace := s.trace ++ [.wire s.par.tmplWr.b0 h.b0, .wire s.par.tmplWr.b1 h.b1, .wire s.par.tmplWr.b2 h.b2,
          .wire s.par.tmplWr.b3 h.b3, .wire s.par.tmplWr.b4 h.b4] })

/-- Where the header rows are refused: no fresh header exchange of the row's direction, or a command string that is not the
template (log 7, log 8). -/
def Obligations.HeaderRowsNeedAFreshExchange : Prop :=
  ∀ (s : State) (a b c : Byte) (n : Len) (h : Hdr5),
    (¬(phase s = some .rxHdr ∧ s.cs = true ∧ s.txch = ⟨.tmplRd, 0, 5, true, true⟩ ∧ s.rxch = ⟨.hdr, 0, 5, true, true⟩) →
      exec (.hdrRdRsp a b c n) s = .refused .noHeaderExchange ∧
      exec (.hdrRdCmd s.par.tmplRd) s = .refused .noHeaderExchange) ∧
    (¬(phase s = some .txHdr ∧ s.cs = true ∧ s.txch = ⟨.tmplWr, 0, 5, true, true⟩ ∧ s.rxch = ⟨.hdr, 0, 5, true, true⟩) →
      exec (.hdrWrRsp a n b c) s = .refused .noHeaderExchange ∧
      exec (.hdrWrCmd s.par.tmplWr) s = .refused .noHeaderExchange) ∧
    (h ≠ s.par.tmplRd → exec (.hdrRdCmd h) s = .refused .notTemplate) ∧
    (h ≠ s.par.tmplWr → exec (.hdrWrCmd h) s = .refused .notTemplate)

/-! ### Frames over all instructions -/

/-- Only XCHG changes host memory, and only the byte at the receive channel's address when that channel points at memory
(R40, R74, R175). -/
def Obligations.OnlyXchgStoresToMemory : Prop :=
  ∀ (i : Instr) (s t : State), exec i s = .next t →
    ((∀ miso, i ≠ .xchg miso) → t.mem = s.mem) ∧
    (∀ a : Nat, ¬(s.rxch.sel = .mem ∧ a = s.rxch.addr.toNat) → Memory.read? t.mem a = Memory.read? s.mem a)

/-- Which instructions write which field of the state: every other instruction leaves it as it was (the "written by" of
R21 to R39; MEM is `OnlyXchgStoresToMemory`). That no instruction writes the parameters and the agents' choices, and that
the header rows write what XCHG writes, is the model's choice (log 5, log 1, log 7). -/
def Obligations.FieldsChangeOnlyByTheirWriters : Prop :=
  ∀ (i : Instr) (s t : State), exec i s = .next t →
    (t.par = s.par ∧ t.input = s.input) ∧
    ((∀ l, i ≠ .rdylvl l) → t.rdy = s.rdy) ∧
    (loadsReset i = false →
      (t.inited = s.inited ∧ t.mode = s.mode) ∧
      (i ≠ .timeout → t.toflag = s.toflag) ∧
      (movesBytes i = false → t.hdrRx = s.hdrRx) ∧
      ((∀ b n, i ≠ .evtreq b n) → i ≠ .rxdone → t.rx = s.rx) ∧
      (i ≠ .rxdone → i ≠ .txdone →
        ((∀ b n, i ≠ .evtreq b n) → i ≠ .rdyirq → (∀ l, i ≠ .rdylvl l) → t.rdypend = s.rdypend) ∧
        ((∀ b n, i ≠ .send b n) →
          (t.tx = s.tx ∧ t.pend = s.pend) ∧
          (i ≠ .rdyirq →
            (t.bus = s.bus ∧ t.dir = s.dir ∧ t.cs = s.cs ∧ t.holdTx = s.holdTx ∧ t.holdRx = s.holdRx ∧
              t.rxres = s.rxres) ∧
            (i ≠ .tmrexp → t.tmrarm = s.tmrarm ∧ (i ≠ .timeout → t.topend = s.topend)) ∧
            ((∀ b n, i ≠ .evtreq b n) →
              (t.rxev = s.rxev ∧ t.rxwait = s.rxwait ∧ t.rdyie = s.rdyie) ∧
              (movesBytes i = false →
                t.txch = s.txch ∧ t.rxch = s.rxch ∧ t.tctx = s.tctx ∧ t.tcrx = s.tcrx))))))

/-! ### Invariants -/

/-- Every step keeps the invariant, whatever the agents choose: R41's nine items, the clauses they need (log 21), and the
canonical form of memory. -/
def Obligations.StepKeepsTheInvariant : Prop :=
  ∀ s t : State, StateInv s → step s = .next t → StateInv t

/-- Under the invariant no instruction faults, so the two faults of the model's own are never raised in a run (log 10,
log 11). -/
def Obligations.NoInstructionFaultsUnderTheInvariant : Prop :=
  ∀ (i : Instr) (s : State) (r : Fault), StateInv s → exec i s ≠ .fault r

/-- Every instruction moves between phases as the table of section 6 of 44_event_handlers.md allows (R248). -/
def Obligations.PhasesFollowTheTransitionTable : Prop :=
  ∀ (i : Instr) (s t : State), StateInv s → exec i s = .next t →
    ∃ p q : Phase, phase s = some p ∧ phase t = some q ∧ tableAllows i p q = true

/-- Chip-select is never asserted twice without a release between, nor released twice: the effects of an instruction
alternate, from the level before it to the level after it (R130, R249; S-P3). -/
def Obligations.ChipSelectEffectsAlternate : Prop :=
  ∀ (i : Instr) (s t : State), StateInv s → exec i s = .next t →
    ∃ es : List Effect, t.trace = s.trace ++ es ∧ csAfter s.cs es = some t.cs

/-- Each no-sleep vote is cast only when it is not held and withdrawn only when it is, from what is held before to what is
held after (R297, R41). -/
def Obligations.VotesAreCastAndWithdrawnInTurn : Prop :=
  ∀ (i : Instr) (s t : State), StateInv s → exec i s = .next t →
    ∃ es : List Effect, t.trace = s.trace ++ es ∧ voteAfter .tx s.holdTx es = some t.holdTx ∧
      voteAfter .rx s.holdRx es = some t.holdRx

/-- A queued SEND starts in the very step that closes the sequence it waited for, and not before: a step that closes
(R249 item 5) starts the request, and every other step but RESET and SEND keeps the request queued and the sequence open
(R249 item 3, R246, R80). -/
def Obligations.QueuedSendStartsAtTheClose : Prop :=
  ∀ (i : Instr) (s t : State), StateInv s → s.pend.valid = true → exec i s = .next t → i ≠ .reset → (∀ b n, i ≠ .send b n) →
    (Closes i s → phase t = some .txHdr ∧ t.pend = ⟨false, 0, 0⟩ ∧ t.tx = ⟨s.pend.ptr, s.pend.len, 0, false, true⟩) ∧
    (¬Closes i s → t.pend = s.pend ∧ t.bus = .busy ∧ t.dir = s.dir)

/-- A ready event is not lost: when a sequence closes and the bus stays idle with a buffer armed, the ready interrupt is
enabled and its latch is the line's level (R246, R344; decision D44). -/
def Obligations.CloseRebuildsTheReadyLatch : Prop :=
  ∀ (i : Instr) (s t : State), StateInv s → exec i s = .next t → s.bus = .busy → t.bus = .available → i ≠ .reset →
    t.rx.valid = true → t.rdyie = true ∧ t.rdypend = t.rdy

/-- The end of a transmit message stays where SEND put it through every header, burst, bounce and retry, until the message
ends (R25). -/
def Obligations.TransmitMessageEndIsKept : Prop :=
  ∀ (i : Instr) (s t : State), StateInv s → exec i s = .next t → s.dir = .tx → t.dir = .tx →
    ¬(i = .txdone ∧ phase s = some .txPayLast) → txEnd t = txEnd s

/-- The two completion services of one burst may run in either order: same state, same trace (R289 item 1, R243). -/
def Obligations.CompletionOrderDoesNotMatter : Prop :=
  ∀ s : State, StateInv s → s.tctx = true → s.tcrx = true →
    serveBoth .txdone .rxdone s = serveBoth .rxdone .txdone s ∧ ∃ t, serveBoth .txdone .rxdone s = some t

/-- MODE selects nothing: no instruction's outcome depends on it but in MODE itself (R28, R201). The source does not say
what mode selects; that it selects nothing is the spec's own decision D4, which errs toward proving (log 18). -/
def Obligations.ModeInfluencesNothing : Prop :=
  ∀ (i : Instr) (s : State) (m : Byte),
    (i ≠ .reset → (∀ n, i ≠ .init n) →
      exec i { s with mode := m } = mapNext (fun t => { t with mode := m }) (exec i s)) ∧
    (i = .reset ∨ (∃ n, i = .init n) → exec i { s with mode := m } = exec i s)

/-- The output to the low-power gate: raised exactly while a vote is held (R32), so exactly while a sequence is open
(R41 items 1 and 5, R296). The two vote ids are the spec's own decision D14 (log 24). -/
def Obligations.NosleepIsRaisedWhileASequenceIsOpen : Prop :=
  (∀ s : State, nosleep s = true ↔ s.holdTx = true ∨ s.holdRx = true) ∧
  (∀ s : State, SpecInv s → (nosleep s = true ↔ s.bus = .busy))
end

