-- ==== Sys2Proof/Laws/Decode.lean ====
section
/-! SUPPORT. The fields of an assembled operation word, and the little-endian count (R101, R110). -/

namespace Sys2Proof

/-- An operation word as a number: its fields at their places (R101). -/
theorem opWord_toNat (op : BitVec 4) (mode : Byte) (len : Len) (buf : Addr) :
    (opWord op mode len buf).toNat = op.toNat * 2 ^ 60 + mode.toNat * 2 ^ 48 + len.toNat * 2 ^ 32 + buf.toNat := by
  have key : ∀ {n k : Nat} (x : BitVec n) (y : BitVec k), (x ++ y).toNat = x.toNat * 2 ^ k + y.toNat := by
    intro n k x y
    rw [BitVec.toNat_append, ← Nat.shiftLeft_add_eq_or_of_lt y.isLt, Nat.shiftLeft_eq]
  show ((op ++ (0#4) ++ mode ++ len ++ buf : BitVec (4 + 4 + 8 + 16 + 32))).toNat = _
  rw [key, key, key, key]
  simp
  ring

section Fields
variable (op : BitVec 4) (mode : Byte) (len : Len) (buf : Addr)

@[simp] theorem fieldOp_opWord : fieldOp (opWord op mode len buf) = op := by
  apply BitVec.eq_of_toNat_eq
  simp only [fieldOp, BitVec.extractLsb'_toNat, opWord_toNat, Nat.shiftRight_eq_div_pow]
  have := op.isLt; have := mode.isLt; have := len.isLt; have := buf.isLt
  omega

@[simp] theorem fieldZ1_opWord : fieldZ1 (opWord op mode len buf) = 0 := by
  apply BitVec.eq_of_toNat_eq
  simp only [fieldZ1, BitVec.extractLsb'_toNat, opWord_toNat, Nat.shiftRight_eq_div_pow]
  have := op.isLt; have := mode.isLt; have := len.isLt; have := buf.isLt
  simp
  omega

@[simp] theorem fieldMode_opWord : fieldMode (opWord op mode len buf) = mode := by
  apply BitVec.eq_of_toNat_eq
  simp only [fieldMode, BitVec.extractLsb'_toNat, opWord_toNat, Nat.shiftRight_eq_div_pow]
  have := op.isLt; have := mode.isLt; have := len.isLt; have := buf.isLt
  omega

@[simp] theorem fieldLen_opWord : fieldLen (opWord op mode len buf) = len := by
  apply BitVec.eq_of_toNat_eq
  simp only [fieldLen, BitVec.extractLsb'_toNat, opWord_toNat, Nat.shiftRight_eq_div_pow]
  have := op.isLt; have := mode.isLt; have := len.isLt; have := buf.isLt
  omega

@[simp] theorem fieldBuf_opWord : fieldBuf (opWord op mode len buf) = buf := by
  apply BitVec.eq_of_toNat_eq
  simp only [fieldBuf, BitVec.extractLsb'_toNat, opWord_toNat, Nat.shiftRight_eq_div_pow]
  have := op.isLt; have := mode.isLt; have := len.isLt; have := buf.isLt
  omega

end Fields

/-- A word whose `z1` is 0 is put together again from its other fields. -/
theorem opWord_fields (w : OpWord) (h : fieldZ1 w = 0) :
    opWord (fieldOp w) (fieldMode w) (fieldLen w) (fieldBuf w) = w := by
  apply BitVec.eq_of_toNat_eq
  have h' := congrArg BitVec.toNat h
  have hw := w.isLt
  simp only [opWord_toNat, fieldOp, fieldMode, fieldLen, fieldBuf, fieldZ1, BitVec.extractLsb'_toNat,
    Nat.shiftRight_eq_div_pow] at h' ⊢
  simp at h'
  omega

@[simp] theorem leCount_countLo_countHi (c : Len) : leCount (countLo c) (countHi c) = c := by
  unfold leCount countLo countHi
  apply BitVec.eq_of_toNat_eq
  simp [BitVec.extractLsb'_toNat, Nat.shiftRight_eq_div_pow]
  omega

@[simp] theorem countLo_leCount (lo hi : Byte) : countLo (leCount lo hi) = lo := by
  unfold leCount countLo
  apply BitVec.eq_of_toNat_eq
  simp [BitVec.extractLsb'_toNat]
  omega

@[simp] theorem countHi_leCount (lo hi : Byte) : countHi (leCount lo hi) = hi := by
  unfold leCount countHi
  apply BitVec.eq_of_toNat_eq
  simp [BitVec.extractLsb'_toNat, Nat.shiftRight_eq_div_pow]
  omega

/-- The count as a number: `lo + 256 * hi`, which never exceeds 65535 (R110, R156). -/
theorem leCount_toNat (lo hi : Byte) : (leCount lo hi).toNat = lo.toNat + 256 * hi.toNat := by
  have := lo.isLt; have := hi.isLt
  simp [leCount]
  omega

end Sys2Proof
end

