-- ==== Sys2Proof/Laws/State.lean ====
section
/-! SUPPORT. What each small update of the state leaves in each field (one lemma per field per update). -/

namespace Sys2Proof.Machine

/-! ### emit -/

@[simp] theorem emit_inited (e : Effect) (s : State) : (emit e s).inited = s.inited := rfl
@[simp] theorem emit_mode (e : Effect) (s : State) : (emit e s).mode = s.mode := rfl
@[simp] theorem emit_bus (e : Effect) (s : State) : (emit e s).bus = s.bus := rfl
@[simp] theorem emit_dir (e : Effect) (s : State) : (emit e s).dir = s.dir := rfl
@[simp] theorem emit_rxev (e : Effect) (s : State) : (emit e s).rxev = s.rxev := rfl
@[simp] theorem emit_rxwait (e : Effect) (s : State) : (emit e s).rxwait = s.rxwait := rfl
@[simp] theorem emit_tx (e : Effect) (s : State) : (emit e s).tx = s.tx := rfl
@[simp] theorem emit_rx (e : Effect) (s : State) : (emit e s).rx = s.rx := rfl
@[simp] theorem emit_pend (e : Effect) (s : State) : (emit e s).pend = s.pend := rfl
@[simp] theorem emit_cs (e : Effect) (s : State) : (emit e s).cs = s.cs := rfl
@[simp] theorem emit_rdy (e : Effect) (s : State) : (emit e s).rdy = s.rdy := rfl
@[simp] theorem emit_rdypend (e : Effect) (s : State) : (emit e s).rdypend = s.rdypend := rfl
@[simp] theorem emit_rdyie (e : Effect) (s : State) : (emit e s).rdyie = s.rdyie := rfl
@[simp] theorem emit_holdTx (e : Effect) (s : State) : (emit e s).holdTx = s.holdTx := rfl
@[simp] theorem emit_holdRx (e : Effect) (s : State) : (emit e s).holdRx = s.holdRx := rfl
@[simp] theorem emit_tmrarm (e : Effect) (s : State) : (emit e s).tmrarm = s.tmrarm := rfl
@[simp] theorem emit_topend (e : Effect) (s : State) : (emit e s).topend = s.topend := rfl
@[simp] theorem emit_toflag (e : Effect) (s : State) : (emit e s).toflag = s.toflag := rfl
@[simp] theorem emit_txch (e : Effect) (s : State) : (emit e s).txch = s.txch := rfl
@[simp] theorem emit_rxch (e : Effect) (s : State) : (emit e s).rxch = s.rxch := rfl
@[simp] theorem emit_tctx (e : Effect) (s : State) : (emit e s).tctx = s.tctx := rfl
@[simp] theorem emit_tcrx (e : Effect) (s : State) : (emit e s).tcrx = s.tcrx := rfl
@[simp] theorem emit_hdrRx (e : Effect) (s : State) : (emit e s).hdrRx = s.hdrRx := rfl
@[simp] theorem emit_rxres (e : Effect) (s : State) : (emit e s).rxres = s.rxres := rfl
@[simp] theorem emit_mem (e : Effect) (s : State) : (emit e s).mem = s.mem := rfl
@[simp] theorem emit_par (e : Effect) (s : State) : (emit e s).par = s.par := rfl
@[simp] theorem emit_trace (e : Effect) (s : State) : (emit e s).trace = s.trace ++ [e] := rfl
@[simp] theorem emit_input (e : Effect) (s : State) : (emit e s).input = s.input := rfl
@[simp] theorem emit_draws (e : Effect) (s : State) : (emit e s).draws = s.draws := rfl

/-! ### holdFor -/

@[simp] theorem holdFor_inited (n : Nat) (s : State) : (holdFor n s).inited = s.inited := rfl
@[simp] theorem holdFor_mode (n : Nat) (s : State) : (holdFor n s).mode = s.mode := rfl
@[simp] theorem holdFor_bus (n : Nat) (s : State) : (holdFor n s).bus = s.bus := rfl
@[simp] theorem holdFor_dir (n : Nat) (s : State) : (holdFor n s).dir = s.dir := rfl
@[simp] theorem holdFor_rxev (n : Nat) (s : State) : (holdFor n s).rxev = s.rxev := rfl
@[simp] theorem holdFor_rxwait (n : Nat) (s : State) : (holdFor n s).rxwait = s.rxwait := rfl
@[simp] theorem holdFor_tx (n : Nat) (s : State) : (holdFor n s).tx = s.tx := rfl
@[simp] theorem holdFor_rx (n : Nat) (s : State) : (holdFor n s).rx = s.rx := rfl
@[simp] theorem holdFor_pend (n : Nat) (s : State) : (holdFor n s).pend = s.pend := rfl
@[simp] theorem holdFor_cs (n : Nat) (s : State) : (holdFor n s).cs = s.cs := rfl
@[simp] theorem holdFor_rdy (n : Nat) (s : State) : (holdFor n s).rdy = s.rdy := rfl
@[simp] theorem holdFor_rdypend (n : Nat) (s : State) : (holdFor n s).rdypend = s.rdypend := rfl
@[simp] theorem holdFor_rdyie (n : Nat) (s : State) : (holdFor n s).rdyie = s.rdyie := rfl
@[simp] theorem holdFor_holdTx (n : Nat) (s : State) : (holdFor n s).holdTx = s.holdTx := rfl
@[simp] theorem holdFor_holdRx (n : Nat) (s : State) : (holdFor n s).holdRx = s.holdRx := rfl
@[simp] theorem holdFor_tmrarm (n : Nat) (s : State) : (holdFor n s).tmrarm = s.tmrarm := rfl
@[simp] theorem holdFor_topend (n : Nat) (s : State) : (holdFor n s).topend = s.topend := rfl
@[simp] theorem holdFor_toflag (n : Nat) (s : State) : (holdFor n s).toflag = s.toflag := rfl
@[simp] theorem holdFor_txch (n : Nat) (s : State) : (holdFor n s).txch = s.txch := rfl
@[simp] theorem holdFor_rxch (n : Nat) (s : State) : (holdFor n s).rxch = s.rxch := rfl
@[simp] theorem holdFor_tctx (n : Nat) (s : State) : (holdFor n s).tctx = s.tctx := rfl
@[simp] theorem holdFor_tcrx (n : Nat) (s : State) : (holdFor n s).tcrx = s.tcrx := rfl
@[simp] theorem holdFor_hdrRx (n : Nat) (s : State) : (holdFor n s).hdrRx = s.hdrRx := rfl
@[simp] theorem holdFor_rxres (n : Nat) (s : State) : (holdFor n s).rxres = s.rxres := rfl
@[simp] theorem holdFor_mem (n : Nat) (s : State) : (holdFor n s).mem = s.mem := rfl
@[simp] theorem holdFor_par (n : Nat) (s : State) : (holdFor n s).par = s.par := rfl
@[simp] theorem holdFor_trace (n : Nat) (s : State) : (holdFor n s).trace = s.trace := rfl
@[simp] theorem holdFor_input (n : Nat) (s : State) : (holdFor n s).input = s.input := rfl
@[simp] theorem holdFor_draws (n : Nat) (s : State) : (holdFor n s).draws = s.draws := rfl

/-! ### csAssert -/

@[simp] theorem csAssert_inited (s : State) : (csAssert s).inited = s.inited := rfl
@[simp] theorem csAssert_mode (s : State) : (csAssert s).mode = s.mode := rfl
@[simp] theorem csAssert_bus (s : State) : (csAssert s).bus = s.bus := rfl
@[simp] theorem csAssert_dir (s : State) : (csAssert s).dir = s.dir := rfl
@[simp] theorem csAssert_rxev (s : State) : (csAssert s).rxev = s.rxev := rfl
@[simp] theorem csAssert_rxwait (s : State) : (csAssert s).rxwait = s.rxwait := rfl
@[simp] theorem csAssert_tx (s : State) : (csAssert s).tx = s.tx := rfl
@[simp] theorem csAssert_rx (s : State) : (csAssert s).rx = s.rx := rfl
@[simp] theorem csAssert_pend (s : State) : (csAssert s).pend = s.pend := rfl
@[simp] theorem csAssert_cs (s : State) : (csAssert s).cs = true := rfl
@[simp] theorem csAssert_rdy (s : State) : (csAssert s).rdy = s.rdy := rfl
@[simp] theorem csAssert_rdypend (s : State) : (csAssert s).rdypend = s.rdypend := rfl
@[simp] theorem csAssert_rdyie (s : State) : (csAssert s).rdyie = s.rdyie := rfl
@[simp] theorem csAssert_holdTx (s : State) : (csAssert s).holdTx = s.holdTx := rfl
@[simp] theorem csAssert_holdRx (s : State) : (csAssert s).holdRx = s.holdRx := rfl
@[simp] theorem csAssert_tmrarm (s : State) : (csAssert s).tmrarm = s.tmrarm := rfl
@[simp] theorem csAssert_topend (s : State) : (csAssert s).topend = s.topend := rfl
@[simp] theorem csAssert_toflag (s : State) : (csAssert s).toflag = s.toflag := rfl
@[simp] theorem csAssert_txch (s : State) : (csAssert s).txch = s.txch := rfl
@[simp] theorem csAssert_rxch (s : State) : (csAssert s).rxch = s.rxch := rfl
@[simp] theorem csAssert_tctx (s : State) : (csAssert s).tctx = s.tctx := rfl
@[simp] theorem csAssert_tcrx (s : State) : (csAssert s).tcrx = s.tcrx := rfl
@[simp] theorem csAssert_hdrRx (s : State) : (csAssert s).hdrRx = s.hdrRx := rfl
@[simp] theorem csAssert_rxres (s : State) : (csAssert s).rxres = s.rxres := rfl
@[simp] theorem csAssert_mem (s : State) : (csAssert s).mem = s.mem := rfl
@[simp] theorem csAssert_par (s : State) : (csAssert s).par = s.par := rfl
@[simp] theorem csAssert_trace (s : State) : (csAssert s).trace = s.trace ++ [.cs true] := rfl
@[simp] theorem csAssert_input (s : State) : (csAssert s).input = s.input := rfl
@[simp] theorem csAssert_draws (s : State) : (csAssert s).draws = s.draws := rfl

/-! ### csRelease -/

@[simp] theorem csRelease_inited (s : State) : (csRelease s).inited = s.inited := rfl
@[simp] theorem csRelease_mode (s : State) : (csRelease s).mode = s.mode := rfl
@[simp] theorem csRelease_bus (s : State) : (csRelease s).bus = s.bus := rfl
@[simp] theorem csRelease_dir (s : State) : (csRelease s).dir = s.dir := rfl
@[simp] theorem csRelease_rxev (s : State) : (csRelease s).rxev = s.rxev := rfl
@[simp] theorem csRelease_rxwait (s : State) : (csRelease s).rxwait = s.rxwait := rfl
@[simp] theorem csRelease_tx (s : State) : (csRelease s).tx = s.tx := rfl
@[simp] theorem csRelease_rx (s : State) : (csRelease s).rx = s.rx := rfl
@[simp] theorem csRelease_pend (s : State) : (csRelease s).pend = s.pend := rfl
@[simp] theorem csRelease_cs (s : State) : (csRelease s).cs = false := rfl
@[simp] theorem csRelease_rdy (s : State) : (csRelease s).rdy = s.rdy := rfl
@[simp] theorem csRelease_rdypend (s : State) : (csRelease s).rdypend = s.rdypend := rfl
@[simp] theorem csRelease_rdyie (s : State) : (csRelease s).rdyie = s.rdyie := rfl
@[simp] theorem csRelease_holdTx (s : State) : (csRelease s).holdTx = s.holdTx := rfl
@[simp] theorem csRelease_holdRx (s : State) : (csRelease s).holdRx = s.holdRx := rfl
@[simp] theorem csRelease_tmrarm (s : State) : (csRelease s).tmrarm = s.tmrarm := rfl
@[simp] theorem csRelease_topend (s : State) : (csRelease s).topend = s.topend := rfl
@[simp] theorem csRelease_toflag (s : State) : (csRelease s).toflag = s.toflag := rfl
@[simp] theorem csRelease_txch (s : State) : (csRelease s).txch = s.txch := rfl
@[simp] theorem csRelease_rxch (s : State) : (csRelease s).rxch = s.rxch := rfl
@[simp] theorem csRelease_tctx (s : State) : (csRelease s).tctx = s.tctx := rfl
@[simp] theorem csRelease_tcrx (s : State) : (csRelease s).tcrx = s.tcrx := rfl
@[simp] theorem csRelease_hdrRx (s : State) : (csRelease s).hdrRx = s.hdrRx := rfl
@[simp] theorem csRelease_rxres (s : State) : (csRelease s).rxres = s.rxres := rfl
@[simp] theorem csRelease_mem (s : State) : (csRelease s).mem = s.mem := rfl
@[simp] theorem csRelease_par (s : State) : (csRelease s).par = s.par := rfl
@[simp] theorem csRelease_trace (s : State) : (csRelease s).trace = s.trace ++ [.cs false] := rfl
@[simp] theorem csRelease_input (s : State) : (csRelease s).input = s.input := rfl
@[simp] theorem csRelease_draws (s : State) : (csRelease s).draws = s.draws := rfl

/-! ### enableRxPath -/

@[simp] theorem enableRxPath_inited (s : State) : (enableRxPath s).inited = s.inited := rfl
@[simp] theorem enableRxPath_mode (s : State) : (enableRxPath s).mode = s.mode := rfl
@[simp] theorem enableRxPath_bus (s : State) : (enableRxPath s).bus = s.bus := rfl
@[simp] theorem enableRxPath_dir (s : State) : (enableRxPath s).dir = s.dir := rfl
@[simp] theorem enableRxPath_rxev (s : State) : (enableRxPath s).rxev = s.rxev := rfl
@[simp] theorem enableRxPath_rxwait (s : State) : (enableRxPath s).rxwait = s.rxwait := rfl
@[simp] theorem enableRxPath_tx (s : State) : (enableRxPath s).tx = s.tx := rfl
@[simp] theorem enableRxPath_rx (s : State) : (enableRxPath s).rx = s.rx := rfl
@[simp] theorem enableRxPath_pend (s : State) : (enableRxPath s).pend = s.pend := rfl
@[simp] theorem enableRxPath_cs (s : State) : (enableRxPath s).cs = s.cs := rfl
@[simp] theorem enableRxPath_rdy (s : State) : (enableRxPath s).rdy = s.rdy := rfl
@[simp] theorem enableRxPath_rdypend (s : State) : (enableRxPath s).rdypend = s.rdy := rfl
@[simp] theorem enableRxPath_rdyie (s : State) : (enableRxPath s).rdyie = true := rfl
@[simp] theorem enableRxPath_holdTx (s : State) : (enableRxPath s).holdTx = s.holdTx := rfl
@[simp] theorem enableRxPath_holdRx (s : State) : (enableRxPath s).holdRx = s.holdRx := rfl
@[simp] theorem enableRxPath_tmrarm (s : State) : (enableRxPath s).tmrarm = s.tmrarm := rfl
@[simp] theorem enableRxPath_topend (s : State) : (enableRxPath s).topend = s.topend := rfl
@[simp] theorem enableRxPath_toflag (s : State) : (enableRxPath s).toflag = s.toflag := rfl
@[simp] theorem enableRxPath_txch (s : State) : (enableRxPath s).txch = s.txch := rfl
@[simp] theorem enableRxPath_rxch (s : State) : (enableRxPath s).rxch = s.rxch := rfl
@[simp] theorem enableRxPath_tctx (s : State) : (enableRxPath s).tctx = s.tctx := rfl
@[simp] theorem enableRxPath_tcrx (s : State) : (enableRxPath s).tcrx = s.tcrx := rfl
@[simp] theorem enableRxPath_hdrRx (s : State) : (enableRxPath s).hdrRx = s.hdrRx := rfl
@[simp] theorem enableRxPath_rxres (s : State) : (enableRxPath s).rxres = s.rxres := rfl
@[simp] theorem enableRxPath_mem (s : State) : (enableRxPath s).mem = s.mem := rfl
@[simp] theorem enableRxPath_par (s : State) : (enableRxPath s).par = s.par := rfl
@[simp] theorem enableRxPath_trace (s : State) : (enableRxPath s).trace = s.trace := rfl
@[simp] theorem enableRxPath_input (s : State) : (enableRxPath s).input = s.input := rfl
@[simp] theorem enableRxPath_draws (s : State) : (enableRxPath s).draws = s.draws := rfl

/-! ### disableRxPath -/

@[simp] theorem disableRxPath_inited (s : State) : (disableRxPath s).inited = s.inited := rfl
@[simp] theorem disableRxPath_mode (s : State) : (disableRxPath s).mode = s.mode := rfl
@[simp] theorem disableRxPath_bus (s : State) : (disableRxPath s).bus = s.bus := rfl
@[simp] theorem disableRxPath_dir (s : State) : (disableRxPath s).dir = s.dir := rfl
@[simp] theorem disableRxPath_rxev (s : State) : (disableRxPath s).rxev = s.rxev := rfl
@[simp] theorem disableRxPath_rxwait (s : State) : (disableRxPath s).rxwait = s.rxwait := rfl
@[simp] theorem disableRxPath_tx (s : State) : (disableRxPath s).tx = s.tx := rfl
@[simp] theorem disableRxPath_rx (s : State) : (disableRxPath s).rx = s.rx := rfl
@[simp] theorem disableRxPath_pend (s : State) : (disableRxPath s).pend = s.pend := rfl
@[simp] theorem disableRxPath_cs (s : State) : (disableRxPath s).cs = s.cs := rfl
@[simp] theorem disableRxPath_rdy (s : State) : (disableRxPath s).rdy = s.rdy := rfl
@[simp] theorem disableRxPath_rdypend (s : State) : (disableRxPath s).rdypend = s.rdypend := rfl
@[simp] theorem disableRxPath_rdyie (s : State) : (disableRxPath s).rdyie = false := rfl
@[simp] theorem disableRxPath_holdTx (s : State) : (disableRxPath s).holdTx = s.holdTx := rfl
@[simp] theorem disableRxPath_holdRx (s : State) : (disableRxPath s).holdRx = s.holdRx := rfl
@[simp] theorem disableRxPath_tmrarm (s : State) : (disableRxPath s).tmrarm = s.tmrarm := rfl
@[simp] theorem disableRxPath_topend (s : State) : (disableRxPath s).topend = s.topend := rfl
@[simp] theorem disableRxPath_toflag (s : State) : (disableRxPath s).toflag = s.toflag := rfl
@[simp] theorem disableRxPath_txch (s : State) : (disableRxPath s).txch = s.txch := rfl
@[simp] theorem disableRxPath_rxch (s : State) : (disableRxPath s).rxch = s.rxch := rfl
@[simp] theorem disableRxPath_tctx (s : State) : (disableRxPath s).tctx = s.tctx := rfl
@[simp] theorem disableRxPath_tcrx (s : State) : (disableRxPath s).tcrx = s.tcrx := rfl
@[simp] theorem disableRxPath_hdrRx (s : State) : (disableRxPath s).hdrRx = s.hdrRx := rfl
@[simp] theorem disableRxPath_rxres (s : State) : (disableRxPath s).rxres = s.rxres := rfl
@[simp] theorem disableRxPath_mem (s : State) : (disableRxPath s).mem = s.mem := rfl
@[simp] theorem disableRxPath_par (s : State) : (disableRxPath s).par = s.par := rfl
@[simp] theorem disableRxPath_trace (s : State) : (disableRxPath s).trace = s.trace := rfl
@[simp] theorem disableRxPath_input (s : State) : (disableRxPath s).input = s.input := rfl
@[simp] theorem disableRxPath_draws (s : State) : (disableRxPath s).draws = s.draws := rfl

/-! ### tmrStart -/

@[simp] theorem tmrStart_inited (s : State) : (tmrStart s).inited = s.inited := rfl
@[simp] theorem tmrStart_mode (s : State) : (tmrStart s).mode = s.mode := rfl
@[simp] theorem tmrStart_bus (s : State) : (tmrStart s).bus = s.bus := rfl
@[simp] theorem tmrStart_dir (s : State) : (tmrStart s).dir = s.dir := rfl
@[simp] theorem tmrStart_rxev (s : State) : (tmrStart s).rxev = s.rxev := rfl
@[simp] theorem tmrStart_rxwait (s : State) : (tmrStart s).rxwait = s.rxwait := rfl
@[simp] theorem tmrStart_tx (s : State) : (tmrStart s).tx = s.tx := rfl
@[simp] theorem tmrStart_rx (s : State) : (tmrStart s).rx = s.rx := rfl
@[simp] theorem tmrStart_pend (s : State) : (tmrStart s).pend = s.pend := rfl
@[simp] theorem tmrStart_cs (s : State) : (tmrStart s).cs = s.cs := rfl
@[simp] theorem tmrStart_rdy (s : State) : (tmrStart s).rdy = s.rdy := rfl
@[simp] theorem tmrStart_rdypend (s : State) : (tmrStart s).rdypend = s.rdypend := rfl
@[simp] theorem tmrStart_rdyie (s : State) : (tmrStart s).rdyie = s.rdyie := rfl
@[simp] theorem tmrStart_holdTx (s : State) : (tmrStart s).holdTx = s.holdTx := rfl
@[simp] theorem tmrStart_holdRx (s : State) : (tmrStart s).holdRx = s.holdRx := rfl
@[simp] theorem tmrStart_tmrarm (s : State) : (tmrStart s).tmrarm = true := rfl
@[simp] theorem tmrStart_topend (s : State) : (tmrStart s).topend = false := rfl
@[simp] theorem tmrStart_toflag (s : State) : (tmrStart s).toflag = s.toflag := rfl
@[simp] theorem tmrStart_txch (s : State) : (tmrStart s).txch = s.txch := rfl
@[simp] theorem tmrStart_rxch (s : State) : (tmrStart s).rxch = s.rxch := rfl
@[simp] theorem tmrStart_tctx (s : State) : (tmrStart s).tctx = s.tctx := rfl
@[simp] theorem tmrStart_tcrx (s : State) : (tmrStart s).tcrx = s.tcrx := rfl
@[simp] theorem tmrStart_hdrRx (s : State) : (tmrStart s).hdrRx = s.hdrRx := rfl
@[simp] theorem tmrStart_rxres (s : State) : (tmrStart s).rxres = s.rxres := rfl
@[simp] theorem tmrStart_mem (s : State) : (tmrStart s).mem = s.mem := rfl
@[simp] theorem tmrStart_par (s : State) : (tmrStart s).par = s.par := rfl
@[simp] theorem tmrStart_trace (s : State) : (tmrStart s).trace = s.trace ++ [.tmrStart] := rfl
@[simp] theorem tmrStart_input (s : State) : (tmrStart s).input = s.input := rfl
@[simp] theorem tmrStart_draws (s : State) : (tmrStart s).draws = s.draws := rfl

/-! ### tmrStop -/

@[simp] theorem tmrStop_inited (s : State) : (tmrStop s).inited = s.inited := rfl
@[simp] theorem tmrStop_mode (s : State) : (tmrStop s).mode = s.mode := rfl
@[simp] theorem tmrStop_bus (s : State) : (tmrStop s).bus = s.bus := rfl
@[simp] theorem tmrStop_dir (s : State) : (tmrStop s).dir = s.dir := rfl
@[simp] theorem tmrStop_rxev (s : State) : (tmrStop s).rxev = s.rxev := rfl
@[simp] theorem tmrStop_rxwait (s : State) : (tmrStop s).rxwait = s.rxwait := rfl
@[simp] theorem tmrStop_tx (s : State) : (tmrStop s).tx = s.tx := rfl
@[simp] theorem tmrStop_rx (s : State) : (tmrStop s).rx = s.rx := rfl
@[simp] theorem tmrStop_pend (s : State) : (tmrStop s).pend = s.pend := rfl
@[simp] theorem tmrStop_cs (s : State) : (tmrStop s).cs = s.cs := rfl
@[simp] theorem tmrStop_rdy (s : State) : (tmrStop s).rdy = s.rdy := rfl
@[simp] theorem tmrStop_rdypend (s : State) : (tmrStop s).rdypend = s.rdypend := rfl
@[simp] theorem tmrStop_rdyie (s : State) : (tmrStop s).rdyie = s.rdyie := rfl
@[simp] theorem tmrStop_holdTx (s : State) : (tmrStop s).holdTx = s.holdTx := rfl
@[simp] theorem tmrStop_holdRx (s : State) : (tmrStop s).holdRx = s.holdRx := rfl
@[simp] theorem tmrStop_tmrarm (s : State) : (tmrStop s).tmrarm = false := rfl
@[simp] theorem tmrStop_topend (s : State) : (tmrStop s).topend = false := rfl
@[simp] theorem tmrStop_toflag (s : State) : (tmrStop s).toflag = s.toflag := rfl
@[simp] theorem tmrStop_txch (s : State) : (tmrStop s).txch = s.txch := rfl
@[simp] theorem tmrStop_rxch (s : State) : (tmrStop s).rxch = s.rxch := rfl
@[simp] theorem tmrStop_tctx (s : State) : (tmrStop s).tctx = s.tctx := rfl
@[simp] theorem tmrStop_tcrx (s : State) : (tmrStop s).tcrx = s.tcrx := rfl
@[simp] theorem tmrStop_hdrRx (s : State) : (tmrStop s).hdrRx = s.hdrRx := rfl
@[simp] theorem tmrStop_rxres (s : State) : (tmrStop s).rxres = s.rxres := rfl
@[simp] theorem tmrStop_mem (s : State) : (tmrStop s).mem = s.mem := rfl
@[simp] theorem tmrStop_par (s : State) : (tmrStop s).par = s.par := rfl
@[simp] theorem tmrStop_trace (s : State) : (tmrStop s).trace = s.trace ++ [.tmrStop] := rfl
@[simp] theorem tmrStop_input (s : State) : (tmrStop s).input = s.input := rfl
@[simp] theorem tmrStop_draws (s : State) : (tmrStop s).draws = s.draws := rfl

/-! ### lpmRequest -/

@[simp] theorem lpmRequest_inited (d : Way) (s : State) : (lpmRequest d s).inited = s.inited := by cases d <;> simp [lpmRequest, emit, setHold]
@[simp] theorem lpmRequest_mode (d : Way) (s : State) : (lpmRequest d s).mode = s.mode := by cases d <;> simp [lpmRequest, emit, setHold]
@[simp] theorem lpmRequest_bus (d : Way) (s : State) : (lpmRequest d s).bus = s.bus := by cases d <;> simp [lpmRequest, emit, setHold]
@[simp] theorem lpmRequest_dir (d : Way) (s : State) : (lpmRequest d s).dir = s.dir := by cases d <;> simp [lpmRequest, emit, setHold]
@[simp] theorem lpmRequest_rxev (d : Way) (s : State) : (lpmRequest d s).rxev = s.rxev := by cases d <;> simp [lpmRequest, emit, setHold]
@[simp] theorem lpmRequest_rxwait (d : Way) (s : State) : (lpmRequest d s).rxwait = s.rxwait := by cases d <;> simp [lpmRequest, emit, setHold]
@[simp] theorem lpmRequest_tx (d : Way) (s : State) : (lpmRequest d s).tx = s.tx := by cases d <;> simp [lpmRequest, emit, setHold]
@[simp] theorem lpmRequest_rx (d : Way) (s : State) : (lpmRequest d s).rx = s.rx := by cases d <;> simp [lpmRequest, emit, setHold]
@[simp] theorem lpmRequest_pend (d : Way) (s : State) : (lpmRequest d s).pend = s.pend := by cases d <;> simp [lpmRequest, emit, setHold]
@[simp] theorem lpmRequest_cs (d : Way) (s : State) : (lpmRequest d s).cs = s.cs := by cases d <;> simp [lpmRequest, emit, setHold]
@[simp] theorem lpmRequest_rdy (d : Way) (s : State) : (lpmRequest d s).rdy = s.rdy := by cases d <;> simp [lpmRequest, emit, setHold]
@[simp] theorem lpmRequest_rdypend (d : Way) (s : State) : (lpmRequest d s).rdypend = s.rdypend := by cases d <;> simp [lpmRequest, emit, setHold]
@[simp] theorem lpmRequest_rdyie (d : Way) (s : State) : (lpmRequest d s).rdyie = s.rdyie := by cases d <;> simp [lpmRequest, emit, setHold]
@[simp] theorem lpmRequest_holdTx (d : Way) (s : State) : (lpmRequest d s).holdTx = (s.holdTx || d == .tx) := by cases d <;> simp [lpmRequest, emit, setHold]
@[simp] theorem lpmRequest_holdRx (d : Way) (s : State) : (lpmRequest d s).holdRx = (s.holdRx || d == .rx) := by cases d <;> simp [lpmRequest, emit, setHold]
@[simp] theorem lpmRequest_tmrarm (d : Way) (s : State) : (lpmRequest d s).tmrarm = s.tmrarm := by cases d <;> simp [lpmRequest, emit, setHold]
@[simp] theorem lpmRequest_topend (d : Way) (s : State) : (lpmRequest d s).topend = s.topend := by cases d <;> simp [lpmRequest, emit, setHold]
@[simp] theorem lpmRequest_toflag (d : Way) (s : State) : (lpmRequest d s).toflag = s.toflag := by cases d <;> simp [lpmRequest, emit, setHold]
@[simp] theorem lpmRequest_txch (d : Way) (s : State) : (lpmRequest d s).txch = s.txch := by cases d <;> simp [lpmRequest, emit, setHold]
@[simp] theorem lpmRequest_rxch (d : Way) (s : State) : (lpmRequest d s).rxch = s.rxch := by cases d <;> simp [lpmRequest, emit, setHold]
@[simp] theorem lpmRequest_tctx (d : Way) (s : State) : (lpmRequest d s).tctx = s.tctx := by cases d <;> simp [lpmRequest, emit, setHold]
@[simp] theorem lpmRequest_tcrx (d : Way) (s : State) : (lpmRequest d s).tcrx = s.tcrx := by cases d <;> simp [lpmRequest, emit, setHold]
@[simp] theorem lpmRequest_hdrRx (d : Way) (s : State) : (lpmRequest d s).hdrRx = s.hdrRx := by cases d <;> simp [lpmRequest, emit, setHold]
@[simp] theorem lpmRequest_rxres (d : Way) (s : State) : (lpmRequest d s).rxres = s.rxres := by cases d <;> simp [lpmRequest, emit, setHold]
@[simp] theorem lpmRequest_mem (d : Way) (s : State) : (lpmRequest d s).mem = s.mem := by cases d <;> simp [lpmRequest, emit, setHold]
@[simp] theorem lpmRequest_par (d : Way) (s : State) : (lpmRequest d s).par = s.par := by cases d <;> simp [lpmRequest, emit, setHold]
@[simp] theorem lpmRequest_trace (d : Way) (s : State) : (lpmRequest d s).trace = s.trace ++ [.lpmRequest d] := by cases d <;> simp [lpmRequest, emit, setHold]
@[simp] theorem lpmRequest_input (d : Way) (s : State) : (lpmRequest d s).input = s.input := by cases d <;> simp [lpmRequest, emit, setHold]
@[simp] theorem lpmRequest_draws (d : Way) (s : State) : (lpmRequest d s).draws = s.draws := by cases d <;> simp [lpmRequest, emit, setHold]

/-! ### lpmAllow -/

@[simp] theorem lpmAllow_inited (d : Way) (s : State) : (lpmAllow d s).inited = s.inited := by cases d <;> simp [lpmAllow, emit, setHold]
@[simp] theorem lpmAllow_mode (d : Way) (s : State) : (lpmAllow d s).mode = s.mode := by cases d <;> simp [lpmAllow, emit, setHold]
@[simp] theorem lpmAllow_bus (d : Way) (s : State) : (lpmAllow d s).bus = s.bus := by cases d <;> simp [lpmAllow, emit, setHold]
@[simp] theorem lpmAllow_dir (d : Way) (s : State) : (lpmAllow d s).dir = s.dir := by cases d <;> simp [lpmAllow, emit, setHold]
@[simp] theorem lpmAllow_rxev (d : Way) (s : State) : (lpmAllow d s).rxev = s.rxev := by cases d <;> simp [lpmAllow, emit, setHold]
@[simp] theorem lpmAllow_rxwait (d : Way) (s : State) : (lpmAllow d s).rxwait = s.rxwait := by cases d <;> simp [lpmAllow, emit, setHold]
@[simp] theorem lpmAllow_tx (d : Way) (s : State) : (lpmAllow d s).tx = s.tx := by cases d <;> simp [lpmAllow, emit, setHold]
@[simp] theorem lpmAllow_rx (d : Way) (s : State) : (lpmAllow d s).rx = s.rx := by cases d <;> simp [lpmAllow, emit, setHold]
@[simp] theorem lpmAllow_pend (d : Way) (s : State) : (lpmAllow d s).pend = s.pend := by cases d <;> simp [lpmAllow, emit, setHold]
@[simp] theorem lpmAllow_cs (d : Way) (s : State) : (lpmAllow d s).cs = s.cs := by cases d <;> simp [lpmAllow, emit, setHold]
@[simp] theorem lpmAllow_rdy (d : Way) (s : State) : (lpmAllow d s).rdy = s.rdy := by cases d <;> simp [lpmAllow, emit, setHold]
@[simp] theorem lpmAllow_rdypend (d : Way) (s : State) : (lpmAllow d s).rdypend = s.rdypend := by cases d <;> simp [lpmAllow, emit, setHold]
@[simp] theorem lpmAllow_rdyie (d : Way) (s : State) : (lpmAllow d s).rdyie = s.rdyie := by cases d <;> simp [lpmAllow, emit, setHold]
@[simp] theorem lpmAllow_holdTx (d : Way) (s : State) : (lpmAllow d s).holdTx = (s.holdTx && d != .tx) := by cases d <;> simp [lpmAllow, emit, setHold]
@[simp] theorem lpmAllow_holdRx (d : Way) (s : State) : (lpmAllow d s).holdRx = (s.holdRx && d != .rx) := by cases d <;> simp [lpmAllow, emit, setHold]
@[simp] theorem lpmAllow_tmrarm (d : Way) (s : State) : (lpmAllow d s).tmrarm = s.tmrarm := by cases d <;> simp [lpmAllow, emit, setHold]
@[simp] theorem lpmAllow_topend (d : Way) (s : State) : (lpmAllow d s).topend = s.topend := by cases d <;> simp [lpmAllow, emit, setHold]
@[simp] theorem lpmAllow_toflag (d : Way) (s : State) : (lpmAllow d s).toflag = s.toflag := by cases d <;> simp [lpmAllow, emit, setHold]
@[simp] theorem lpmAllow_txch (d : Way) (s : State) : (lpmAllow d s).txch = s.txch := by cases d <;> simp [lpmAllow, emit, setHold]
@[simp] theorem lpmAllow_rxch (d : Way) (s : State) : (lpmAllow d s).rxch = s.rxch := by cases d <;> simp [lpmAllow, emit, setHold]
@[simp] theorem lpmAllow_tctx (d : Way) (s : State) : (lpmAllow d s).tctx = s.tctx := by cases d <;> simp [lpmAllow, emit, setHold]
@[simp] theorem lpmAllow_tcrx (d : Way) (s : State) : (lpmAllow d s).tcrx = s.tcrx := by cases d <;> simp [lpmAllow, emit, setHold]
@[simp] theorem lpmAllow_hdrRx (d : Way) (s : State) : (lpmAllow d s).hdrRx = s.hdrRx := by cases d <;> simp [lpmAllow, emit, setHold]
@[simp] theorem lpmAllow_rxres (d : Way) (s : State) : (lpmAllow d s).rxres = s.rxres := by cases d <;> simp [lpmAllow, emit, setHold]
@[simp] theorem lpmAllow_mem (d : Way) (s : State) : (lpmAllow d s).mem = s.mem := by cases d <;> simp [lpmAllow, emit, setHold]
@[simp] theorem lpmAllow_par (d : Way) (s : State) : (lpmAllow d s).par = s.par := by cases d <;> simp [lpmAllow, emit, setHold]
@[simp] theorem lpmAllow_trace (d : Way) (s : State) : (lpmAllow d s).trace = s.trace ++ [.lpmAllow d] := by cases d <;> simp [lpmAllow, emit, setHold]
@[simp] theorem lpmAllow_input (d : Way) (s : State) : (lpmAllow d s).input = s.input := by cases d <;> simp [lpmAllow, emit, setHold]
@[simp] theorem lpmAllow_draws (d : Way) (s : State) : (lpmAllow d s).draws = s.draws := by cases d <;> simp [lpmAllow, emit, setHold]

/-! ### flush -/

@[simp] theorem flush_inited (s : State) : (flush s).inited = s.inited := rfl
@[simp] theorem flush_mode (s : State) : (flush s).mode = s.mode := rfl
@[simp] theorem flush_bus (s : State) : (flush s).bus = s.bus := rfl
@[simp] theorem flush_dir (s : State) : (flush s).dir = s.dir := rfl
@[simp] theorem flush_rxev (s : State) : (flush s).rxev = s.rxev := rfl
@[simp] theorem flush_rxwait (s : State) : (flush s).rxwait = s.rxwait := rfl
@[simp] theorem flush_tx (s : State) : (flush s).tx = s.tx := rfl
@[simp] theorem flush_rx (s : State) : (flush s).rx = s.rx := rfl
@[simp] theorem flush_pend (s : State) : (flush s).pend = s.pend := rfl
@[simp] theorem flush_cs (s : State) : (flush s).cs = s.cs := rfl
@[simp] theorem flush_rdy (s : State) : (flush s).rdy = s.rdy := rfl
@[simp] theorem flush_rdypend (s : State) : (flush s).rdypend = s.rdypend := rfl
@[simp] theorem flush_rdyie (s : State) : (flush s).rdyie = s.rdyie := rfl
@[simp] theorem flush_holdTx (s : State) : (flush s).holdTx = s.holdTx := rfl
@[simp] theorem flush_holdRx (s : State) : (flush s).holdRx = s.holdRx := rfl
@[simp] theorem flush_tmrarm (s : State) : (flush s).tmrarm = s.tmrarm := rfl
@[simp] theorem flush_topend (s : State) : (flush s).topend = s.topend := rfl
@[simp] theorem flush_toflag (s : State) : (flush s).toflag = s.toflag := rfl
@[simp] theorem flush_txch (s : State) : (flush s).txch = { s.txch with en := false } := rfl
@[simp] theorem flush_rxch (s : State) : (flush s).rxch = { s.rxch with en := false } := rfl
@[simp] theorem flush_tctx (s : State) : (flush s).tctx = false := rfl
@[simp] theorem flush_tcrx (s : State) : (flush s).tcrx = false := rfl
@[simp] theorem flush_hdrRx (s : State) : (flush s).hdrRx = s.hdrRx := rfl
@[simp] theorem flush_rxres (s : State) : (flush s).rxres = s.rxres := rfl
@[simp] theorem flush_mem (s : State) : (flush s).mem = s.mem := rfl
@[simp] theorem flush_par (s : State) : (flush s).par = s.par := rfl
@[simp] theorem flush_trace (s : State) : (flush s).trace = s.trace := rfl
@[simp] theorem flush_input (s : State) : (flush s).input = s.input := rfl
@[simp] theorem flush_draws (s : State) : (flush s).draws = s.draws := rfl

/-! ### toResetState -/

@[simp] theorem toResetState_inited (s : State) : (toResetState s).inited = State.reset.inited := rfl
@[simp] theorem toResetState_mode (s : State) : (toResetState s).mode = State.reset.mode := rfl
@[simp] theorem toResetState_bus (s : State) : (toResetState s).bus = State.reset.bus := rfl
@[simp] theorem toResetState_dir (s : State) : (toResetState s).dir = State.reset.dir := rfl
@[simp] theorem toResetState_rxev (s : State) : (toResetState s).rxev = State.reset.rxev := rfl
@[simp] theorem toResetState_rxwait (s : State) : (toResetState s).rxwait = State.reset.rxwait := rfl
@[simp] theorem toResetState_tx (s : State) : (toResetState s).tx = State.reset.tx := rfl
@[simp] theorem toResetState_rx (s : State) : (toResetState s).rx = State.reset.rx := rfl
@[simp] theorem toResetState_pend (s : State) : (toResetState s).pend = State.reset.pend := rfl
@[simp] theorem toResetState_cs (s : State) : (toResetState s).cs = State.reset.cs := rfl
@[simp] theorem toResetState_rdy (s : State) : (toResetState s).rdy = s.rdy := rfl
@[simp] theorem toResetState_rdypend (s : State) : (toResetState s).rdypend = State.reset.rdypend := rfl
@[simp] theorem toResetState_rdyie (s : State) : (toResetState s).rdyie = State.reset.rdyie := rfl
@[simp] theorem toResetState_holdTx (s : State) : (toResetState s).holdTx = State.reset.holdTx := rfl
@[simp] theorem toResetState_holdRx (s : State) : (toResetState s).holdRx = State.reset.holdRx := rfl
@[simp] theorem toResetState_tmrarm (s : State) : (toResetState s).tmrarm = State.reset.tmrarm := rfl
@[simp] theorem toResetState_topend (s : State) : (toResetState s).topend = State.reset.topend := rfl
@[simp] theorem toResetState_toflag (s : State) : (toResetState s).toflag = State.reset.toflag := rfl
@[simp] theorem toResetState_txch (s : State) : (toResetState s).txch = State.reset.txch := rfl
@[simp] theorem toResetState_rxch (s : State) : (toResetState s).rxch = State.reset.rxch := rfl
@[simp] theorem toResetState_tctx (s : State) : (toResetState s).tctx = State.reset.tctx := rfl
@[simp] theorem toResetState_tcrx (s : State) : (toResetState s).tcrx = State.reset.tcrx := rfl
@[simp] theorem toResetState_hdrRx (s : State) : (toResetState s).hdrRx = State.reset.hdrRx := rfl
@[simp] theorem toResetState_rxres (s : State) : (toResetState s).rxres = State.reset.rxres := rfl
@[simp] theorem toResetState_mem (s : State) : (toResetState s).mem = s.mem := rfl
@[simp] theorem toResetState_par (s : State) : (toResetState s).par = s.par := rfl
@[simp] theorem toResetState_trace (s : State) : (toResetState s).trace = s.trace := rfl
@[simp] theorem toResetState_input (s : State) : (toResetState s).input = s.input := rfl
@[simp] theorem toResetState_draws (s : State) : (toResetState s).draws = s.draws := rfl

end Sys2Proof.Machine
end

