-- ==== Sys2Proof/Laws/Ops.lean ====
section
/-! SUPPORT. For each shared operation, everything it does, said once: the whole state a procedure leaves, and what an
operation that may stop has done when it answers a next state. -/

namespace Sys2Proof.Machine

/-! ### Advancing an address -/

/-- Below the top of the address space the sum is exact: no carry (R156). -/
theorem advanceAddr_toNat {a : Addr} {n : Len} (h : a.toNat + n.toNat < Config.addrSpace) :
    (advanceAddr a n).toNat = a.toNat + n.toNat := by
  have h' : a.toNat + n.toNat < 4294967296 := h
  have := n.isLt
  simp [advanceAddr, h]
  omega

@[simp] theorem nextAddr_still (a : Addr) : nextAddr false a = a := rfl

/-- A moving channel address that is not the highest one goes up by 1. -/
theorem nextAddr_toNat {a : Addr} (h : a.toNat + 1 < Config.addrSpace) : (nextAddr true a).toNat = a.toNat + 1 :=
  advanceAddr_toNat (n := 1) h

/-! ### The output to the low-power gate -/

/-- The gate sees a vote exactly when one of the two is held (R32). -/
theorem nosleep_iff (s : State) : nosleep s = true ↔ s.holdTx = true ∨ s.holdRx = true := by
  simp [nosleep]

/-- Casting a vote raises the output, whichever it is (R297). -/
@[simp] theorem nosleep_lpmRequest (d : Way) (s : State) : nosleep (lpmRequest d s) = true := by
  cases d <;> simp [nosleep, lpmRequest, setHold, emit]

/-- A bounce leaves the output as it was (R132). -/
@[simp] theorem nosleep_csBounce (s : State) : nosleep (csBounce s) = nosleep s := rfl

/-! ### Procedures: the whole state they leave -/

theorem csBounce_eq (s : State) : csBounce s = { s with cs := true, trace := s.trace ++ [.cs false, .cs true] } := by
  simp [csBounce, csAssert, csRelease, emit, holdFor]

theorem armHeader_eq (d : Way) (s : State) :
    armHeader d s = { s with rxres := 0, txch := headerTxChan d, rxch := headerRxChan, tctx := false, tcrx := false } := rfl

theorem armPayloadTx_eq (p : Addr) (n : Len) (s : State) :
    armPayloadTx p n s =
      { s with txch := ⟨.mem, p, n, true, true⟩, rxch := ⟨.sink, 0, n, false, true⟩, tctx := false, tcrx := false } := rfl

theorem armPayloadRx_eq (p : Addr) (n : Len) (s : State) :
    armPayloadRx p n s =
      { s with txch := ⟨.dummy, 0, n, false, true⟩, rxch := ⟨.mem, p, n, true, true⟩, tctx := false, tcrx := false } := rfl

theorem retry_eq (d : Way) (s : State) :
    retry d s =
      { s with
        cs := true, rxres := 0, txch := headerTxChan d, rxch := headerRxChan, tctx := false, tcrx := false
        trace := s.trace ++ [.cs false, .cs true] } := by
  simp [retry, armHeader_eq, csBounce_eq]

theorem startTx_eq (p : Addr) (n : Len) (s : State) :
    startTx p n s =
      { s with
        bus := .busy, dir := .tx, rxev := .checkHeaderForTransmit, rxwait := false, rdyie := false, cs := true
        tmrarm := true, topend := false, holdTx := true
        tx := { ptr := p, rem := n, burst := 0, cont := false, valid := true }
        txch := headerTxChan .tx, rxch := headerRxChan, tctx := false, tcrx := false, rxres := 0
        trace := s.trace ++ [.cs true, .tmrStart, .lpmRequest .tx] } := by
  simp [startTx, armHeader_eq, disableRxPath, csAssert, tmrStart, lpmRequest, setHold, emit]

theorem startRx_eq (s : State) :
    startRx s =
      { s with
        bus := .busy, dir := .rx, rxev := .checkHeaderForReceive, rxwait := false, rdyie := false, cs := true
        tmrarm := true, topend := false, holdRx := true
        txch := headerTxChan .rx, rxch := headerRxChan, tctx := false, tcrx := false, rxres := 0
        trace := s.trace ++ [.cs true, .tmrStart, .lpmRequest .rx] } := by
  simp [startRx, armHeader_eq, disableRxPath, csAssert, tmrStart, lpmRequest, setHold, emit]

theorem rxProgram_eq (total : Len) (s : State) :
    rxProgram total s =
      { s with
        rx := { s.rx with
          burst := (rxBurst total s.rx.size).size, rem := (rxBurst total s.rx.size).rem
          cont := (rxBurst total s.rx.size).more }
        rxev := burstEvent (rxBurst total s.rx.size).more, rxwait := false
        txch := ⟨.dummy, 0, (rxBurst total s.rx.size).size, false, true⟩
        rxch := ⟨.mem, s.rx.ptr, (rxBurst total s.rx.size).size, true, true⟩, tctx := false, tcrx := false } := rfl

theorem close_tx_eq (s : State) :
    close .tx s =
      { s with
        bus := .available, dir := .none, rxev := .endOfTransfer, rxwait := false, cs := false, holdTx := false
        tmrarm := false, topend := false, txch := { s.txch with en := false }, rxch := { s.rxch with en := false }
        tctx := false, tcrx := false, trace := s.trace ++ [.cs false, .lpmAllow .tx, .tmrStop] } := by
  simp [close, flush, csRelease, lpmAllow, tmrStop, setHold, emit]

theorem close_rx_eq (s : State) :
    close .rx s =
      { s with
        bus := .available, dir := .none, rxev := .endOfTransfer, rxwait := false, cs := false, holdRx := false
        tmrarm := false, topend := false, txch := { s.txch with en := false }, rxch := { s.rxch with en := false }
        tctx := false, tcrx := false, trace := s.trace ++ [.cs false, .lpmAllow .rx, .tmrStop] } := by
  simp [close, flush, csRelease, lpmAllow, tmrStop, setHold, emit]

/-- The three things `AfterClose` can do (R246). -/
theorem afterClose_cases (s : State) :
    (s.pend.valid = true ∧ afterClose s = startTx s.pend.ptr s.pend.len { s with pend := ⟨false, 0, 0⟩ }) ∨
    (s.pend.valid = false ∧ s.rx.valid = true ∧ afterClose s = { s with rdypend := s.rdy, rdyie := true }) ∨
    (s.pend.valid = false ∧ s.rx.valid = false ∧ afterClose s = s) := by
  unfold afterClose
  cases hp : s.pend.valid <;> cases hr : s.rx.valid <;> simp [holdFor, enableRxPath, readyLevel]

/-! ### Operands -/

theorem hostRefusal_eq_none {buf : Addr} {len : Len} {s : State} :
    hostRefusal buf len s = none ↔
      s.inited = true ∧ len ≠ 0 ∧ buf.toNat + len.toNat ≤ Config.addrSpace := by
  unfold hostRefusal lenOk bufferOk
  cases s.inited <;> simp
  split <;> simp_all

theorem go_iff (p : Params) (state : Byte) (count : Len) : go p state count = true ↔ state = p.readyCode ∧ 0 < count := by
  simp [go]

theorem len_not_pos {c : Len} : ¬0 < c ↔ c = 0 := by
  rw [BitVec.lt_def, ← BitVec.toNat_inj]
  simp

theorem go_eq_false (p : Params) (state : Byte) (count : Len) :
    go p state count = false ↔ state ≠ p.readyCode ∨ count = 0 := by
  rw [← len_not_pos, ← Bool.not_eq_true, go_iff, not_and_or]

theorem classify_of_go {p : Params} {d : Way} {state : Byte} {count : Len} {rdy : Bool} (h : go p state count = true) :
    classify p d state count rdy = .accept := by
  rw [classify, if_pos h]

theorem classify_of_spurious {p : Params} {state : Byte} {count : Len} {rdy : Bool} (hc : count = 0)
    (hr : rdy = false) : classify p .rx state count rdy = .spurious := by
  have hg : ¬go p state count = true := by rw [go_iff, hc]; simp
  rw [classify, if_neg hg, if_pos ⟨rfl, hc, hr⟩]

theorem classify_of_retry {p : Params} {d : Way} {state : Byte} {count : Len} {rdy : Bool}
    (hg : go p state count = false) (hs : ¬(d = .rx ∧ count = 0 ∧ rdy = false)) :
    classify p d state count rdy = .retry := by
  rw [classify, if_neg (by simp [hg]), if_neg hs]

theorem classify_tx_ne_spurious (p : Params) (state : Byte) (count : Len) (rdy : Bool) :
    classify p .tx state count rdy ≠ .spurious := by
  unfold classify
  split <;> simp

theorem umin_toNat (a b : Len) : (umin a b).toNat = min a.toNat b.toNat := by
  unfold umin
  split <;> rename_i h <;> rw [BitVec.le_def] at h <;> omega

theorem txBurst_toNat (count rem : Len) :
    (txBurst count rem).size.toNat = min count.toNat rem.toNat ∧
    (txBurst count rem).rem.toNat = rem.toNat - min count.toNat rem.toNat := by
  have h := umin_toNat count rem
  refine ⟨h, ?_⟩
  have hr : (txBurst count rem).rem = rem - umin count rem := rfl
  rw [hr, BitVec.toNat_sub_of_le (by rw [BitVec.le_def]; omega), h]

theorem rxBurst_toNat (total size : Len) :
    (rxBurst total size).size.toNat = min total.toNat size.toNat ∧
    (rxBurst total size).rem.toNat = total.toNat - min total.toNat size.toNat := by
  have h := umin_toNat total size
  refine ⟨h, ?_⟩
  have hr : (rxBurst total size).rem = total - umin total size := rfl
  rw [hr, BitVec.toNat_sub_of_le (by rw [BitVec.le_def]; omega), h]

theorem txBurst_more (count rem : Len) : (txBurst count rem).more = true ↔ count < rem := by
  simp [txBurst]

theorem rxBurst_more (total size : Len) : (rxBurst total size).more = true ↔ size < total := by
  simp [rxBurst]

/-! ### Operations that may stop -/

/-- A service that answers a next state was initialised and pending, and its handler ran with its latch cleared. -/
theorem enterService_next {q : IrqSource} {s t : State} {h : State → Host.Outcome State Fault Refusal} :
    enterService q s h = .next t ↔ s.inited = true ∧ irqPending q s = true ∧ h (irqClear q s) = .next t := by
  unfold enterService
  cases s.inited <;> cases irqPending q s <;> simp

theorem enterService_fault {q : IrqSource} {s : State} {r : Fault} {h : State → Host.Outcome State Fault Refusal} :
    enterService q s h = .fault r ↔ s.inited = true ∧ irqPending q s = true ∧ h (irqClear q s) = .fault r := by
  unfold enterService
  cases s.inited <;> cases irqPending q s <;> simp

theorem exchangeEnabled_iff (s : State) :
    exchangeEnabled s = true ↔
      s.cs = true ∧ s.txch.en = true ∧ s.rxch.en = true ∧ 0 < s.txch.cnt ∧ 0 < s.rxch.cnt := by
  simp [exchangeEnabled, and_assoc]

/-- The state a received byte is stored into: `HDR_RX`, host memory, or neither. -/
theorem storeMiso?_some {miso : Byte} {s u : State} (h : storeMiso? miso s = some u) :
    (s.rxch.sel = .hdr ∧ ∃ b, Hdr5.set? s.hdrRx s.rxch.addr.toNat miso = some b ∧ u = { s with hdrRx := b }) ∨
    (s.rxch.sel = .sink ∧ u = s) ∨
    (s.rxch.sel = .mem ∧ u = { s with mem := Memory.write s.mem s.rxch.addr.toNat miso }) := by
  unfold storeMiso? at h
  split at h
  · rename_i hs
    rw [Option.map_eq_some_iff] at h
    obtain ⟨b, hb, rfl⟩ := h
    exact .inl ⟨hs, b, hb, rfl⟩
  · rename_i hs
    exact .inr (.inl ⟨hs, (Option.some.inj h).symm⟩)
  · rename_i hs
    exact .inr (.inr ⟨hs, (Option.some.inj h).symm⟩)

/-- An exchange that answers a next state: it was enabled, and this is the state. -/
theorem exchange_next {miso : Byte} {s t : State} (h : exchange miso s = .next t) :
    exchangeEnabled s = true ∧ ∃ mosi u, mosiByte? s = some mosi ∧ storeMiso? miso s = some u ∧
      t = { u with
        txch := s.txch.next, rxch := s.rxch.next
        tctx := s.tctx || s.txch.next.cnt == 0, tcrx := s.tcrx || s.rxch.next.cnt == 0
        draws := if readsUnwritten s then s.draws + 1 else s.draws
        trace := s.trace ++ [.wire mosi miso] } := by
  unfold exchange at h
  split at h
  · rename_i he
    refine ⟨he, ?_⟩
    split at h
    · rename_i mosi u hm hu
      refine ⟨mosi, u, hm, hu, ?_⟩
      obtain ⟨-, b, -, rfl⟩ | ⟨-, rfl⟩ | ⟨-, rfl⟩ := storeMiso?_some hu <;>
        simpa [advanceChannels, emit] using h.symm
    · cases h
  · cases h

theorem headerArmed_iff (d : Way) (s : State) :
    headerArmed d s = true ↔
      phase s = some (match d with | .rx => .rxHdr | .tx => .txHdr) ∧ s.cs = true ∧
        s.txch = headerTxChan d ∧ s.rxch = headerRxChan := by
  cases d <;> simp [headerArmed, and_assoc]

/-- A fresh header exchange runs to its end: the whole state it leaves. -/
theorem headerExchange_of_armed {d : Way} {h : Hdr5} {s : State} (ha : headerArmed d s = true) :
    headerExchange d h s = .next { s with
      hdrRx := h
      txch := { headerTxChan d with addr := 5, cnt := 0 }, rxch := { headerRxChan with addr := 5, cnt := 0 }
      tctx := true, tcrx := true
      trace := s.trace ++ [.wire (hdrTemplate s.par d).b0 h.b0, .wire (hdrTemplate s.par d).b1 h.b1,
        .wire (hdrTemplate s.par d).b2 h.b2, .wire (hdrTemplate s.par d).b3 h.b3,
        .wire (hdrTemplate s.par d).b4 h.b4] } := by
  have hh := ha
  rw [headerArmed_iff] at ha
  obtain ⟨-, hcs, ht, hr⟩ := ha
  cases d <;>
    simp [headerExchange, hh, hdrList, exchangeAll, exchange, exchangeEnabled, mosiByte?, storeMiso?, readsUnwritten,
      advanceChannels, emit, TxChan.next, RxChan.next, nextAddr, advanceAddr, Config.addrSpace, hcs, ht, hr, headerTxChan, headerRxChan, Config.hdrLen, Hdr5.get?,
      Hdr5.set?, hdrTemplate]

/-- A header exchange that answers a next state was armed afresh. -/
theorem headerExchange_next {d : Way} {h : Hdr5} {s t : State} (hx : headerExchange d h s = .next t) :
    headerArmed d s = true := by
  unfold headerExchange at hx
  split at hx
  · assumption
  · cases hx

end Sys2Proof.Machine
end

