-- ==== Sys2Proof/Laws/Exec.lean ====
section
/-! SUPPORT. What each instruction has done when it answers a next state: one inversion lemma per meaning. -/

namespace Sys2Proof.Machine

/-- The transmit context after its end of transfer (R242), and the receive context after its own (R237). -/
def clearedTx : TxCtx := ⟨0, 0, 0, false, false⟩
def clearedRx : RxCtx := ⟨0, 0, 0, 0, false, false⟩

/-! ### Parts of the handlers -/

theorem txProgram_eq (count : Len) (s : State) :
    txProgram count s =
      { s with
        tx := { s.tx with
          burst := (txBurst count s.tx.rem).size, rem := (txBurst count s.tx.rem).rem
          cont := (txBurst count s.tx.rem).more }
        rxev := burstEvent (txBurst count s.tx.rem).more
        txch := ⟨.mem, s.tx.ptr, (txBurst count s.tx.rem).size, true, true⟩
        rxch := ⟨.sink, 0, (txBurst count s.tx.rem).size, false, true⟩, tctx := false, tcrx := false } := rfl

theorem payloadCompleteRxMore_eq (s : State) :
    payloadCompleteRxMore s =
      { s with
        rx := { s.rx with ptr := advanceAddr s.rx.ptr s.rx.burst, size := s.rx.size - s.rx.burst }
        rxwait := true, trace := s.trace ++ [.notifyRx s.rx.burst true] } := rfl

theorem payloadCompleteTxMore_eq (s : State) :
    payloadCompleteTxMore s =
      { s with
        tx := { s.tx with ptr := advanceAddr s.tx.ptr s.tx.burst }
        rxev := .checkHeaderForTransmit, cs := true, rxres := 0
        txch := headerTxChan .tx, rxch := headerRxChan, tctx := false, tcrx := false
        trace := s.trace ++ [.cs false, .cs true] } := by
  simp [payloadCompleteTxMore, csBounce_eq, armHeader_eq]

theorem payloadCompleteRxEnd_eq (s : State) :
    payloadCompleteRxEnd s =
      afterClose { close .rx s with
        rx := clearedRx, trace := s.trace ++ [.cs false, .lpmAllow .rx, .tmrStop, .notifyRx s.rx.burst false] } := by
  simp [payloadCompleteRxEnd, holdFor, emit, close_rx_eq, clearedRx]

theorem payloadCompleteTxEnd_eq (s : State) :
    payloadCompleteTxEnd s =
      afterClose { close .tx s with
        tx := clearedTx, trace := s.trace ++ [.cs false, .lpmAllow .tx, .tmrStop, .notifyTx] } := by
  simp [payloadCompleteTxEnd, emit, close_tx_eq, clearedTx]

/-- The three ends of a read-header exchange (R233). -/
theorem headerCompleteRx_cases (s : State) :
    (s.hdrRx.b0 = s.par.readyCode ∧ 0 < leCount s.hdrRx.b3 s.hdrRx.b4 ∧
      headerCompleteRx s = rxProgram (leCount s.hdrRx.b3 s.hdrRx.b4) s) ∨
    ((s.hdrRx.b0 ≠ s.par.readyCode ∨ leCount s.hdrRx.b3 s.hdrRx.b4 = 0) ∧
      ¬(leCount s.hdrRx.b3 s.hdrRx.b4 = 0 ∧ s.rdy = false) ∧ headerCompleteRx s = retry .rx s) ∨
    (leCount s.hdrRx.b3 s.hdrRx.b4 = 0 ∧ s.rdy = false ∧ headerCompleteRx s = afterClose (close .rx s)) := by
  by_cases hg : go s.par s.hdrRx.b0 (leCount s.hdrRx.b3 s.hdrRx.b4) = true
  · exact .inl ⟨((go_iff _ _ _).1 hg).1, ((go_iff _ _ _).1 hg).2, by
      simp only [headerCompleteRx, hdrParse, readyLevel, classify_of_go hg]⟩
  · rw [Bool.not_eq_true] at hg
    by_cases hs : leCount s.hdrRx.b3 s.hdrRx.b4 = 0 ∧ s.rdy = false
    · exact .inr (.inr ⟨hs.1, hs.2, by
        simp only [headerCompleteRx, hdrParse, readyLevel, classify_of_spurious hs.1 hs.2, spuriousClose]⟩)
    · refine .inr (.inl ⟨(go_eq_false _ _ _).1 hg, hs, ?_⟩)
      have hr := classify_of_retry (d := .rx) (rdy := s.rdy) hg (fun h => hs h.2)
      simp only [headerCompleteRx, hdrParse, readyLevel, hr]

/-- The two ends of a write-header exchange (R234). -/
theorem headerCompleteTx_cases (s : State) :
    (s.hdrRx.b0 = s.par.readyCode ∧ 0 < leCount s.hdrRx.b1 s.hdrRx.b2 ∧
      headerCompleteTx s = txProgram (leCount s.hdrRx.b1 s.hdrRx.b2) s) ∨
    ((s.hdrRx.b0 ≠ s.par.readyCode ∨ leCount s.hdrRx.b1 s.hdrRx.b2 = 0) ∧ headerCompleteTx s = retry .tx s) := by
  by_cases hg : go s.par s.hdrRx.b0 (leCount s.hdrRx.b1 s.hdrRx.b2) = true
  · exact .inl ⟨((go_iff _ _ _).1 hg).1, ((go_iff _ _ _).1 hg).2, by
      simp only [headerCompleteTx, hdrParse, readyLevel, classify_of_go hg]⟩
  · rw [Bool.not_eq_true] at hg
    have hr := classify_of_retry (d := .tx) (rdy := s.rdy) hg (fun h => nomatch h.1)
    exact .inr ⟨(go_eq_false _ _ _).1 hg, by simp only [headerCompleteTx, hdrParse, readyLevel, hr]⟩

/-! ### Host commands -/

theorem execReset_eq (s : State) :
    execReset s = .next { toResetState s with
      trace := s.trace ++ (if s.cs then [.cs false] else []) ++ (if s.holdTx then [.lpmAllow .tx] else []) ++
        (if s.holdRx then [.lpmAllow .rx] else []) ++ (if s.tmrarm then [.tmrStop] else []) } := by
  unfold execReset
  cases s.cs <;> cases s.holdTx <;> cases s.holdRx <;> cases s.tmrarm <;>
    simp [emitIf, emit, toResetState]

theorem execInit_next {mode : Byte} {s t : State} (h : execInit mode s = .next t) :
    s.bus = .available ∧ t = { toResetState s with inited := true, mode := mode } := by
  unfold execInit at h
  split at h
  · cases h
  · rename_i hb
    cases hbus : s.bus
    · exact ⟨rfl, (Host.Outcome.next.inj h).symm⟩
    · exact absurd hbus hb

theorem execSend_next {buf : Addr} {len : Len} {s t : State} (h : execSend buf len s = .next t) :
    (s.inited = true ∧ len ≠ 0 ∧ buf.toNat + len.toNat ≤ Config.addrSpace) ∧
    ((s.bus = .available ∧ t = startTx buf len s) ∨ (s.bus = .busy ∧ t = { s with pend := ⟨true, buf, len⟩ })) := by
  unfold execSend at h
  split at h
  · cases h
  · rename_i hn
    refine ⟨hostRefusal_eq_none.1 hn, ?_⟩
    split at h <;> rename_i hb
    · exact .inl ⟨hb, (Host.Outcome.next.inj h).symm⟩
    · exact .inr ⟨hb, (Host.Outcome.next.inj h).symm⟩

theorem execEvtreq_next {buf : Addr} {len : Len} {s t : State} (h : execEvtreq buf len s = .next t) :
    (s.inited = true ∧ len ≠ 0 ∧ buf.toNat + len.toNat ≤ Config.addrSpace) ∧
    ((s.bus = .busy ∧ s.dir = .rx ∧ s.rxwait = true ∧
        t = rxProgram s.rx.rem { s with rx := { s.rx with ptr := buf, size := len } }) ∨
      (¬(s.bus = .busy ∧ s.dir = .rx) ∧
        t = { s with rx := ⟨buf, len, 0, 0, false, true⟩, rdypend := s.rdy, rdyie := true })) := by
  unfold execEvtreq at h
  split at h
  · cases h
  · rename_i hn
    refine ⟨hostRefusal_eq_none.1 hn, ?_⟩
    split at h
    · rename_i hb
      split at h
      · cases h
      · rename_i hw
        exact .inl ⟨hb.1, hb.2, by simpa using hw, (Host.Outcome.next.inj h).symm⟩
    · rename_i hb
      exact .inr ⟨hb, (Host.Outcome.next.inj h).symm⟩

/-! ### Services -/

theorem execRdyirq_next {s t : State} (h : execRdyirq s = .next t) :
    s.inited = true ∧ s.rdypend = true ∧ s.rdyie = true ∧
    ((s.bus = .available ∧ t = startRx { s with rdypend := false }) ∨
      (s.bus = .busy ∧ t = { s with rdypend := false })) := by
  unfold execRdyirq at h
  rw [enterService_next] at h
  obtain ⟨hi, hp, h⟩ := h
  simp only [irqPending, Bool.and_eq_true] at hp
  refine ⟨hi, hp.1, hp.2, ?_⟩
  simp only [irqClear] at h
  split at h <;> rename_i hb
  · exact .inl ⟨hb, (Host.Outcome.next.inj h).symm⟩
  · exact .inr ⟨hb, (Host.Outcome.next.inj h).symm⟩

/-- The phase does not depend on the completion latches. -/
@[simp] theorem phase_clear_tcrx (s : State) (b : Bool) : phase { s with tcrx := b } = phase s := rfl
@[simp] theorem phase_clear_tctx (s : State) (b : Bool) : phase { s with tctx := b } = phase s := rfl

theorem execRxdone_next {s t : State} (h : execRxdone s = .next t) :
    s.inited = true ∧ s.tcrx = true ∧
    ((phase s = some .rxHdr ∧ t = headerCompleteRx { s with tcrx := false }) ∨
      (phase s = some .txHdr ∧ t = headerCompleteTx { s with tcrx := false }) ∨
      (phase s = some .rxPayLast ∧ t = payloadCompleteRxEnd { s with tcrx := false }) ∨
      (phase s = some .rxPayMore ∧ t = payloadCompleteRxMore { s with tcrx := false }) ∨
      ((phase s = some .txPayMore ∨ phase s = some .txPayLast ∨ phase s = some .rxWaitBuf ∨ phase s = some .idle) ∧
        t = { s with tcrx := false })) := by
  unfold execRxdone at h
  rw [enterService_next] at h
  obtain ⟨hi, hp, h⟩ := h
  refine ⟨hi, hp, ?_⟩
  simp only [irqClear, phase_clear_tcrx] at h
  split at h <;> rename_i hph
  case h_9 => cases h
  all_goals
    have ht := (Host.Outcome.next.inj h).symm
    simp [hph, ht]

theorem execTxdone_next {s t : State} (h : execTxdone s = .next t) :
    s.inited = true ∧ s.tctx = true ∧
    ((phase s = some .txPayMore ∧ t = payloadCompleteTxMore { s with tctx := false }) ∨
      (phase s = some .txPayLast ∧ t = payloadCompleteTxEnd { s with tctx := false }) ∨
      ((phase s = some .txHdr ∨ phase s = some .rxHdr ∨ phase s = some .rxPayMore ∨ phase s = some .rxPayLast ∨
          phase s = some .rxWaitBuf ∨ phase s = some .idle) ∧
        t = { s with tctx := false })) := by
  unfold execTxdone at h
  rw [enterService_next] at h
  obtain ⟨hi, hp, h⟩ := h
  refine ⟨hi, hp, ?_⟩
  simp only [irqClear, phase_clear_tctx] at h
  split at h <;> rename_i hph
  case h_9 => cases h
  all_goals
    have ht := (Host.Outcome.next.inj h).symm
    simp [hph, ht]

theorem execTimeout_next {s t : State} (h : execTimeout s = .next t) :
    s.inited = true ∧ s.topend = true ∧
      t = { s with topend := false, toflag := true, trace := s.trace ++ [.notifyTimeout] } := by
  unfold execTimeout at h
  rw [enterService_next] at h
  obtain ⟨hi, hp, h⟩ := h
  exact ⟨hi, hp, (Host.Outcome.next.inj h).symm⟩

theorem execTmrexp_next {s t : State} (h : execTmrexp s = .next t) :
    s.tmrarm = true ∧ t = { s with tmrarm := false, topend := true } := by
  unfold execTmrexp at h
  split at h
  · cases h
  · rename_i ha
    exact ⟨by simpa using ha, (Host.Outcome.next.inj h).symm⟩

/-! ### Header rows -/

theorem headerArmed_draws (d : Way) (s : State) (n : Nat) : headerArmed d { s with draws := n } = headerArmed d s := rfl

/-- A header command that answers a next state sent the template in a fresh exchange; the response is free. -/
theorem headerCommand_next {d : Way} {tmpl : Hdr5} {s t : State} (h : headerCommand d tmpl s = .next t) :
    tmpl = hdrTemplate s.par d ∧ headerArmed d s = true ∧
      headerExchange d (drawResponse s) { s with draws := s.draws + 5 } = .next t := by
  unfold headerCommand at h
  split at h
  · exact ⟨‹_›, headerArmed_draws d s _ ▸ headerExchange_next h, h⟩
  · cases h

/-! ### The step -/

/-- A step that answers a next state ran an instruction, or stored a byte for the host. -/
theorem step_next {s t : State} (h : step s = .next t) :
    (∃ x i rest, s.input = .sym x :: rest ∧ decode x = .ok i ∧ exec i { s with input := rest } = .next t) ∨
    (∃ a v rest, s.input = .hostStore a v :: rest ∧
      t = { s with input := rest, mem := Memory.write s.mem a.toNat v }) := by
  unfold step fetch at h
  cases hin : s.input with
  | nil => simp [hin] at h
  | cons e rest =>
    cases e with
    | sym x =>
      cases hd : decode x with
      | error e => simp [hin, hd] at h
      | ok i =>
        simp only [hin, hd] at h
        exact .inl ⟨x, i, rest, rfl, hd, h⟩
    | hostStore a v =>
      simp only [hin] at h
      exact .inr ⟨a, v, rest, rfl, (Host.Outcome.next.inj h).symm⟩
    | busError => simp [hin] at h

end Sys2Proof.Machine
end

