-- ==== Sys2Proof/Laws/PerInstr.lean ====
section
/-! SUPPORT. What is said of every instruction as syntax, one lemma per constructor: its symbol has the shape its row of
the opcode table gives it. -/

namespace Sys2Proof.Laws.Encoding

/-- The operation code of an instruction (R103), none for a header row. -/
def opCode (i : Instr) : Option (BitVec 4) :=
  match i with
  | .init _ => some 0x1
  | .send _ _ => some 0x2
  | .evtreq _ _ => some 0x3
  | .rdyirq => some 0x8
  | .txdone => some 0x9
  | .rxdone => some 0xA
  | .timeout => some 0xB
  | .xchg _ => some 0xC
  | .rdylvl _ => some 0xD
  | .tmrexp => some 0xE
  | .reset => some 0xF
  | .hdrRdRsp _ _ _ _ => none
  | .hdrWrRsp _ _ _ _ => none
  | .hdrRdCmd _ => none
  | .hdrWrCmd _ => none

/-- An operation is encoded by a word with its code and `z1 = 0` (R101, R103), a header row by five bytes (R100). -/
def Statement (i : Instr) : Prop :=
  match encode i with
  | .op w => opCode i = some (fieldOp w) ∧ fieldZ1 w = 0
  | .header _ bytes => opCode i = none ∧ bytes.length = 5

theorem init (mode : Byte) : Statement (.init mode) := by simp [Statement, encode, opCode]
theorem send (buf : Addr) (len : Len) : Statement (.send buf len) := by simp [Statement, encode, opCode]
theorem evtreq (buf : Addr) (len : Len) : Statement (.evtreq buf len) := by simp [Statement, encode, opCode]
theorem rdyirq : Statement .rdyirq := by simp [Statement, encode, opCode]
theorem txdone : Statement .txdone := by simp [Statement, encode, opCode]
theorem rxdone : Statement .rxdone := by simp [Statement, encode, opCode]
theorem timeout : Statement .timeout := by simp [Statement, encode, opCode]
theorem xchg (miso : Byte) : Statement (.xchg miso) := by simp [Statement, encode, opCode]
theorem rdylvl (level : Bool) : Statement (.rdylvl level) := by simp [Statement, encode, opCode]
theorem tmrexp : Statement .tmrexp := by simp [Statement, encode, opCode]
theorem reset : Statement .reset := by simp [Statement, encode, opCode]
theorem hdrRdRsp (state rsv1 rsv2 : Byte) (count : Len) : Statement (.hdrRdRsp state rsv1 rsv2 count) := by
  simp [Statement, encode, opCode, hdrList]
theorem hdrWrRsp (state : Byte) (count : Len) (rsv3 rsv4 : Byte) : Statement (.hdrWrRsp state count rsv3 rsv4) := by
  simp [Statement, encode, opCode, hdrList]
theorem hdrRdCmd (tmpl : Hdr5) : Statement (.hdrRdCmd tmpl) := by simp [Statement, encode, opCode, hdrList]
theorem hdrWrCmd (tmpl : Hdr5) : Statement (.hdrWrCmd tmpl) := by simp [Statement, encode, opCode, hdrList]

end Sys2Proof.Laws.Encoding
end

