-- ==== Sys2Proof/Laws/Phase.lean ====
section
/-! SUPPORT. The phase read as the fields it names (R42), one equivalence per phase. -/

namespace Sys2Proof.Machine

section PhaseFields
variable (s : State)

theorem phase_eq_idle : phase s = some .idle ↔ s.bus = .available := by
  unfold phase; cases s.bus <;> cases s.dir <;> cases s.rxev <;> cases s.rxwait <;> simp

theorem phase_eq_txHdr :
    phase s = some .txHdr ↔ s.bus = .busy ∧ s.dir = .tx ∧ s.rxev = .checkHeaderForTransmit ∧ s.rxwait = false := by
  unfold phase; cases s.bus <;> cases s.dir <;> cases s.rxev <;> cases s.rxwait <;> simp

theorem phase_eq_txPayMore :
    phase s = some .txPayMore ↔ s.bus = .busy ∧ s.dir = .tx ∧ s.rxev = .continuePayload ∧ s.rxwait = false := by
  unfold phase; cases s.bus <;> cases s.dir <;> cases s.rxev <;> cases s.rxwait <;> simp

theorem phase_eq_txPayLast :
    phase s = some .txPayLast ↔ s.bus = .busy ∧ s.dir = .tx ∧ s.rxev = .endOfTransfer ∧ s.rxwait = false := by
  unfold phase; cases s.bus <;> cases s.dir <;> cases s.rxev <;> cases s.rxwait <;> simp

theorem phase_eq_rxHdr :
    phase s = some .rxHdr ↔ s.bus = .busy ∧ s.dir = .rx ∧ s.rxev = .checkHeaderForReceive ∧ s.rxwait = false := by
  unfold phase; cases s.bus <;> cases s.dir <;> cases s.rxev <;> cases s.rxwait <;> simp

theorem phase_eq_rxPayMore :
    phase s = some .rxPayMore ↔ s.bus = .busy ∧ s.dir = .rx ∧ s.rxev = .continuePayload ∧ s.rxwait = false := by
  unfold phase; cases s.bus <;> cases s.dir <;> cases s.rxev <;> cases s.rxwait <;> simp

theorem phase_eq_rxPayLast :
    phase s = some .rxPayLast ↔ s.bus = .busy ∧ s.dir = .rx ∧ s.rxev = .endOfTransfer ∧ s.rxwait = false := by
  unfold phase; cases s.bus <;> cases s.dir <;> cases s.rxev <;> cases s.rxwait <;> simp

theorem phase_eq_rxWaitBuf :
    phase s = some .rxWaitBuf ↔ s.bus = .busy ∧ s.dir = .rx ∧ s.rxev = .continuePayload ∧ s.rxwait = true := by
  unfold phase; cases s.bus <;> cases s.dir <;> cases s.rxev <;> cases s.rxwait <;> simp

end PhaseFields

/-- The phase reads only the four sequencer fields (R42). -/
theorem phase_congr {s t : State} (hb : s.bus = t.bus) (hd : s.dir = t.dir) (he : s.rxev = t.rxev)
    (hw : s.rxwait = t.rxwait) : phase s = phase t := by
  simp only [phase, hb, hd, he, hw]

end Sys2Proof.Machine
end

