-- ==== Sys2Proof/Tests/Slice0.lean ====
section
/-! SUPPORT. The model's own tests: expected results from 95_test_vectors.md (the table is named at each), ill-formed
terms, and for every statement with hypotheses a concrete state that meets them. -/

namespace Sys2Proof.Tests

open Sys2Proof Sys2Proof.Machine

/-! ### Small states -/

/-- After INIT. -/
def idle : State := { State.reset with inited := true }

/-- Idle, a buffer of four bytes armed, the ready line up and latched. -/
def ready : State :=
  { idle with rx := ⟨0x20000200, 4, 0, 0, false, true⟩, rdy := true, rdypend := true, rdyie := true }

/-- A transmit sequence with its write header armed. -/
def txHdr : State :=
  { idle with
    bus := .busy, dir := .tx, rxev := .checkHeaderForTransmit, cs := true, holdTx := true, tmrarm := true
    tx := ⟨0x20000100, 7, 0, false, true⟩, txch := ⟨.tmplWr, 0, 5, true, true⟩, rxch := ⟨.hdr, 0, 5, true, true⟩ }

/-- The same with the header exchanged: ready, window 3. -/
def txHdrDone : State :=
  { txHdr with
    txch := ⟨.tmplWr, 5, 0, true, true⟩, rxch := ⟨.hdr, 5, 0, true, true⟩, tctx := true, tcrx := true
    hdrRx := ⟨0x02, 0x03, 0, 0, 0⟩ }

/-- A transmit burst moved, four bytes left. -/
def txMore : State :=
  { txHdr with
    rxev := .continuePayload, tx := ⟨0x20000100, 4, 3, true, true⟩
    txch := ⟨.mem, 0x20000103, 0, true, true⟩, rxch := ⟨.sink, 0, 0, false, true⟩, tctx := true, tcrx := true }

/-- The last transmit burst moved. -/
def txLast : State :=
  { txHdr with
    rxev := .endOfTransfer, tx := ⟨0x20000106, 0, 1, false, true⟩
    txch := ⟨.mem, 0x20000107, 0, true, true⟩, rxch := ⟨.sink, 0, 0, false, true⟩, tctx := true, tcrx := true }

/-- A receive sequence with its read header armed. -/
def rxHdr : State :=
  { idle with
    bus := .busy, dir := .rx, rxev := .checkHeaderForReceive, cs := true, holdRx := true, tmrarm := true
    rx := ⟨0x20000200, 4, 0, 0, false, true⟩, txch := ⟨.tmplRd, 0, 5, true, true⟩, rxch := ⟨.hdr, 0, 5, true, true⟩ }

/-- The same with the header exchanged: ready, six bytes. -/
def rxHdrDone : State :=
  { rxHdr with
    txch := ⟨.tmplRd, 5, 0, true, true⟩, rxch := ⟨.hdr, 5, 0, true, true⟩, tctx := true, tcrx := true
    hdrRx := ⟨0x02, 0, 0, 0x06, 0⟩ }

/-- The same with a header of no bytes: a spurious wake while the line is down. -/
def rxSpurious : State := { rxHdrDone with hdrRx := ⟨0x02, 0, 0, 0, 0⟩ }

/-- A receive burst moved, two bytes left. -/
def rxMore : State :=
  { rxHdr with
    rxev := .continuePayload, rx := ⟨0x20000200, 4, 2, 4, true, true⟩
    txch := ⟨.dummy, 0, 0, false, true⟩, rxch := ⟨.mem, 0x20000204, 0, true, true⟩, tctx := true, tcrx := true }

/-- Waiting for the next buffer. -/
def rxWait : State :=
  { rxMore with rx := ⟨0x20000204, 0, 2, 4, true, true⟩, rxwait := true, tcrx := false }

/-- The last receive burst moved. -/
def rxLast : State :=
  { rxHdr with
    rxev := .endOfTransfer, rx := ⟨0x20000300, 8, 0, 2, false, true⟩
    txch := ⟨.dummy, 0, 0, false, true⟩, rxch := ⟨.mem, 0x20000302, 0, true, true⟩, tctx := true, tcrx := true }

/-- A request queued behind a state. -/
def queued (s : State) : State := { s with pend := ⟨true, 0x20000410, 2⟩ }

/-- The outcome is a next state with the property. -/
def nextIs (o : Host.Outcome State Fault Refusal) (p : State → Bool) : Bool :=
  match o with
  | .next t => p t
  | .fault _ => false
  | .refused _ => false

/-- The outcome is this refusal. -/
def refusedAs (o : Host.Outcome State Fault Refusal) (r : Refusal) : Bool :=
  match o with
  | .next _ => false
  | .fault _ => false
  | .refused q => q == r

/-! ### Decoding (95_test_vectors.md 2.1; R106 to R108) -/

theorem test_decode_host_commands :
    decodeWord 0x1000000000000000 = .ok (.init 0) ∧ decodeWord 0x10FF000000000000 = .ok (.init 255) ∧
    decodeWord 0x2000000320000000 = .ok (.send 0x20000000 3) ∧
    decodeWord 0x20000001FFFFFFFF = .ok (.send 0xFFFFFFFF 1) ∧
    decodeWord 0x3000FFFF00000000 = .ok (.evtreq 0 65535) ∧ decodeWord 0xF000000000000000 = .ok .reset := by decide

theorem test_decode_events :
    decodeWord 0x8000000000000000 = .ok .rdyirq ∧ decodeWord 0x9000000000000000 = .ok .txdone ∧
    decodeWord 0xA000000000000000 = .ok .rxdone ∧ decodeWord 0xB000000000000000 = .ok .timeout ∧
    decodeWord 0xE000000000000000 = .ok .tmrexp := by decide

theorem test_decode_lines :
    decodeWord 0xC0000000000000FF = .ok (.xchg 0xFF) ∧ decodeWord 0xD000000000000001 = .ok (.rdylvl true) ∧
    decodeWord 0xD000000000000000 = .ok (.rdylvl false) := by decide

theorem test_decode_headers :
    decodeHeader .rdRsp [0x02, 0xAA, 0x55, 0x34, 0x12] = .ok (.hdrRdRsp 0x02 0xAA 0x55 4660) ∧
    decodeHeader .wrRsp [0x02, 0x2C, 0x01, 0xDE, 0xAD] = .ok (.hdrWrRsp 0x02 300 0xDE 0xAD) ∧
    decodeHeader .rdCmd [0x0B, 0, 0, 0, 0] = .ok (.hdrRdCmd ⟨0x0B, 0, 0, 0, 0⟩) ∧
    decodeHeader .wrCmd [0x0A, 0, 0, 0, 0] = .ok (.hdrWrCmd ⟨0x0A, 0, 0, 0, 0⟩) := by decide

theorem test_decode_invalid :
    decodeWord 0x0000000000000000 = .error .reservedOp ∧ decodeWord 0x7000000000000000 = .error .reservedOp ∧
    decodeWord 0x2100000320000000 = .error .z1NotZero ∧ decodeWord 0x2001000320000000 = .error .unusedFieldNotZero ∧
    decodeWord 0x1000000100000000 = .error .unusedFieldNotZero ∧
    decodeWord 0x8000000000000001 = .error .unusedFieldNotZero ∧
    decodeWord 0xC000000000000100 = .error .unusedFieldNotZero ∧
    decodeWord 0xD000000000000002 = .error .unusedFieldNotZero ∧
    decodeHeader .rdRsp [0x02, 0, 0, 0] = .error .headerLength := by decide

theorem test_table_word :
    decodeTableWord 64 0x2000000320000000 = some (.send 0x20000000 3) ∧
    decodeTableWord 40 0x0200000600 = some (.hdrRdRsp 0x02 0 0 6) ∧ decodeTableWord 64 0 = none := by decide

theorem test_fetch_word :
    nextIs (step (State.reset.withFetchWord 64 0x1001000000000000)) (fun t => t.inited && t.mode == 1) = true := by decide

/-! ### Operand constraints (R104) -/

theorem test_wf_refuses_zero_length :
    Instr.wf (.send 0x20000000 0) = false ∧ Instr.wf (.evtreq 0x20000000 0) = false := by decide

theorem test_wf_refuses_wrapping_buffer :
    Instr.wf (.send 0xFFFFFFFF 2) = false ∧ Instr.wf (.evtreq 0xFFFF0002 65535) = false := by decide

theorem test_wf_accepts_highest_buffer :
    Instr.wf (.send 0xFFFFFFFF 1) = true ∧ Instr.wf (.evtreq 0xFFFF0001 65535) = true := by decide

/-! ### Header codec (95_test_vectors.md 2.2) -/

theorem test_hdrParse :
    hdrParse .rx ⟨0x02, 0xAA, 0x55, 0x34, 0x12⟩ = (0x02, 4660) ∧ hdrParse .tx ⟨0x02, 0x2C, 0x01, 0, 0⟩ = (0x02, 300) ∧
    hdrParse .rx ⟨0x02, 0x2C, 0x01, 0, 0⟩ = (0x02, 0) := by decide

theorem test_classify :
    classify Params.default .rx 0x02 6 false = .accept ∧ classify Params.default .rx 0x00 0 false = .spurious ∧
    classify Params.default .rx 0x02 0 true = .retry ∧ classify Params.default .rx 0x00 5 false = .retry ∧
    classify Params.default .tx 0x02 0 false = .retry ∧ classify Params.default .tx 0xFF 65535 false = .retry := by decide

theorem test_bursts :
    txBurst 100 300 = ⟨100, true, 200⟩ ∧ txBurst 100 100 = ⟨100, false, 0⟩ ∧ txBurst 1 65535 = ⟨1, true, 65534⟩ ∧
    rxBurst 6 4 = ⟨4, true, 2⟩ ∧ rxBurst 2 8 = ⟨2, false, 0⟩ ∧ rxBurst 65535 1 = ⟨1, true, 65534⟩ := by decide

/-! ### Single steps (95_test_vectors.md 2.3 to 2.7) -/

theorem test_init_resets :
    nextIs (exec (.init 0) { ready with toflag := true })
      (fun t => t == { idle with rdy := true }) = true := by decide

theorem test_init_busy : refusedAs (exec (.init 0) txHdr) .initWhileBusy = true := by decide

theorem test_send_starts :
    nextIs (exec (.send 0x20000100 7) { idle with rdyie := true })
      (fun t => t == { txHdr with trace := [.cs true, .tmrStart, .lpmRequest .tx] }) = true := by decide

theorem test_send_queues : nextIs (exec (.send 0x20000410 2) rxHdr) (fun t => t == queued rxHdr) = true := by decide

theorem test_evtreq_arms :
    nextIs (exec (.evtreq 0x20000500 16) { txMore with rdy := true })
      (fun t => t.rx == ⟨0x20000500, 16, 0, 0, false, true⟩ && t.rdyie && t.rdypend && phase t == some .txPayMore) =
      true := by decide

theorem test_evtreq_continues :
    nextIs (exec (.evtreq 0x20000300 8) rxWait)
      (fun t => phase t == some .rxPayLast && t.rx == ⟨0x20000300, 8, 0, 2, false, true⟩ &&
        t.txch == ⟨.dummy, 0, 2, false, true⟩ && t.rxch == ⟨.mem, 0x20000300, 2, true, true⟩ && !t.rxwait) =
      true := by decide

theorem test_reset_timer_stopped :
    nextIs (exec .reset { txHdr with tmrarm := false, toflag := true })
      (fun t => t == { State.reset with trace := [.cs false, .lpmAllow .tx] }) = true := by decide

theorem test_reset_while_receiving :
    nextIs (exec .reset rxMore) (fun t => t.trace == [.cs false, .lpmAllow .rx, .tmrStop]) = true := by decide

theorem test_rdylvl_rises :
    nextIs (exec (.rdylvl true) State.reset) (fun t => t == { State.reset with rdy := true, rdypend := true }) = true ∧
    nextIs (exec (.rdylvl true) { idle with rdy := true }) (fun t => t == { idle with rdy := true }) = true := by decide

theorem test_rdylvl_falls :
    nextIs (exec (.rdylvl false) { idle with rdy := true, rdypend := true })
      (fun t => t == { idle with rdypend := true }) = true := by decide

theorem test_rdyirq_opens :
    nextIs (exec .rdyirq ready)
      (fun t => t == { rxHdr with rdy := true, trace := [.cs true, .tmrStart, .lpmRequest .rx] }) = true := by decide

theorem test_rdyirq_masked : refusedAs (exec .rdyirq { idle with rdypend := true }) .notPending = true := by decide

theorem test_rxdone_accepts :
    nextIs (exec .rxdone rxHdrDone)
      (fun t => phase t == some .rxPayMore && t.rx == ⟨0x20000200, 4, 2, 4, true, true⟩) = true ∧
    nextIs (exec .rxdone txHdrDone)
      (fun t => phase t == some .txPayMore && t.tx == ⟨0x20000100, 4, 3, true, true⟩ &&
        t.txch == ⟨.mem, 0x20000100, 3, true, true⟩) = true := by decide

theorem test_rxdone_closes :
    nextIs (exec .rxdone (queued rxLast))
      (fun t => phase t == some .txHdr && t.tx == ⟨0x20000410, 2, 0, false, true⟩ && t.pend == ⟨false, 0, 0⟩ &&
        t.trace == [.cs false, .lpmAllow .rx, .tmrStop, .notifyRx 2 false, .cs true, .tmrStart, .lpmRequest .tx]) =
      true ∧
    nextIs (exec .rxdone rxSpurious)
      (fun t => phase t == some .idle && t.rx.valid && t.rdyie && !t.rdypend &&
        t.trace == [.cs false, .lpmAllow .rx, .tmrStop]) = true := by decide

theorem test_txdone_more :
    nextIs (exec .txdone txMore)
      (fun t => phase t == some .txHdr && t.tx.ptr == 0x20000103 && t.trace == [.cs false, .cs true]) = true := by decide

theorem test_txdone_last :
    nextIs (exec .txdone { txLast with rdy := true, rx := ⟨0x20000200, 4, 0, 0, false, true⟩ })
      (fun t => phase t == some .idle && t.tx == ⟨0, 0, 0, false, false⟩ && t.rdyie && t.rdypend &&
        t.trace == [.cs false, .lpmAllow .tx, .tmrStop, .notifyTx]) = true := by decide

theorem test_timeout :
    nextIs (exec .timeout { txHdr with topend := true, tmrarm := false })
      (fun t => t == { txHdr with tmrarm := false, toflag := true, trace := [.notifyTimeout] }) = true := by decide

theorem test_tmrexp :
    nextIs (exec .tmrexp txHdr) (fun t => t == { txHdr with tmrarm := false, topend := true }) = true ∧
    refusedAs (exec .tmrexp idle) .notArmed = true := by decide

theorem test_xchg_last_header_byte :
    nextIs (exec (.xchg 0x00) { txHdr with txch := ⟨.tmplWr, 4, 1, true, true⟩, rxch := ⟨.hdr, 4, 1, true, true⟩ })
      (fun t => t.txch == ⟨.tmplWr, 5, 0, true, true⟩ && t.rxch == ⟨.hdr, 5, 0, true, true⟩ && t.tctx && t.tcrx &&
        t.trace == [.wire 0x00 0x00]) = true := by decide

theorem test_xchg_payload :
    nextIs (exec (.xchg 0x04)
        { rxMore with
          txch := ⟨.dummy, 0, 4, false, true⟩, rxch := ⟨.mem, 0x20000200, 4, true, true⟩, tctx := false, tcrx := false })
      (fun t => t.mem == [(0x20000200, 0x04)] && t.rxch == ⟨.mem, 0x20000201, 3, true, true⟩ &&
        t.txch == ⟨.dummy, 0, 3, false, true⟩ && t.trace == [.wire 0xFF 0x04]) = true := by decide

theorem test_hdrRdRsp :
    nextIs (exec (.hdrRdRsp 0x02 0 0 6) rxHdr)
      (fun t => t.hdrRx == ⟨0x02, 0, 0, 0x06, 0⟩ && t.tctx && t.tcrx &&
        t.trace == [.wire 0x0B 0x02, .wire 0 0, .wire 0 0, .wire 0 0x06, .wire 0 0]) = true := by decide

theorem test_hdrWrRsp :
    nextIs (exec (.hdrWrRsp 0x02 300 0 0) txHdr)
      (fun t => t.hdrRx == ⟨0x02, 0x2C, 0x01, 0, 0⟩ && t.tctx && t.tcrx &&
        t.trace == [.wire 0x0A 0x02, .wire 0 0x2C, .wire 0 0x01, .wire 0 0, .wire 0 0]) = true := by decide

theorem test_hdrRdCmd :
    nextIs (exec (.hdrRdCmd ⟨0x0B, 0, 0, 0, 0⟩) rxHdr)
      (fun t => t.txch == ⟨.tmplRd, 5, 0, true, true⟩ && t.tctx && t.tcrx) = true ∧
    refusedAs (exec (.hdrRdCmd ⟨0x0B, 0, 0, 0, 0⟩) txHdr) .noHeaderExchange = true := by decide

theorem test_hdrWrCmd :
    nextIs (exec (.hdrWrCmd ⟨0x0A, 0, 0, 0, 0⟩) txHdr)
      (fun t => t.txch == ⟨.tmplWr, 5, 0, true, true⟩ && t.tctx && t.tcrx) = true ∧
    refusedAs (exec (.hdrWrCmd ⟨0x0B, 0, 0, 0, 0⟩) txHdr) .notTemplate = true := by decide

/-- The gate's output (R32): each vote alone raises it, none lowers it. -/
theorem test_nosleep : nosleep txHdr = true ∧ nosleep rxHdr = true ∧ nosleep idle = false := by decide

/-! ### The invariant in the small states -/

theorem inv_idle : StateInv idle :=
  ⟨by decide, by decide, by decide, by decide, by decide, by decide, by decide, by decide⟩
theorem inv_ready : StateInv ready :=
  ⟨by decide, by decide, by decide, by decide, by decide, by decide, by decide, by decide⟩
theorem inv_txHdr : StateInv txHdr :=
  ⟨by decide, by decide, by decide, by decide, by decide, by decide, by decide, by decide⟩
theorem inv_txHdrDone : StateInv txHdrDone :=
  ⟨by decide, by decide, by decide, by decide, by decide, by decide, by decide, by decide⟩
theorem inv_txMore : StateInv txMore :=
  ⟨by decide, by decide, by decide, by decide, by decide, by decide, by decide, by decide⟩
theorem inv_txLast : StateInv txLast :=
  ⟨by decide, by decide, by decide, by decide, by decide, by decide, by decide, by decide⟩
theorem inv_rxHdr : StateInv rxHdr :=
  ⟨by decide, by decide, by decide, by decide, by decide, by decide, by decide, by decide⟩
theorem inv_rxSpurious : StateInv rxSpurious :=
  ⟨by decide, by decide, by decide, by decide, by decide, by decide, by decide, by decide⟩
theorem inv_rxMore : StateInv rxMore :=
  ⟨by decide, by decide, by decide, by decide, by decide, by decide, by decide, by decide⟩
theorem inv_rxWait : StateInv rxWait :=
  ⟨by decide, by decide, by decide, by decide, by decide, by decide, by decide, by decide⟩
theorem inv_queued_rxLast : StateInv (queued rxLast) :=
  ⟨by decide, by decide, by decide, by decide, by decide, by decide, by decide, by decide⟩

theorem inv_queued_txLast : StateInv (queued txLast) :=
  ⟨by decide, by decide, by decide, by decide, by decide, by decide, by decide, by decide⟩
theorem inv_queued_rxSpurious : StateInv (queued rxSpurious) :=
  ⟨by decide, by decide, by decide, by decide, by decide, by decide, by decide, by decide⟩

/-! ### Witnesses: the hypotheses of each statement met together, one theorem per statement -/

theorem witness_EncodeOfDecodeIsIdentity :
    decode (.op 0xC0000000000000FF) = .ok (.xchg 0xFF) ∧
    decode (.header .wrRsp [0x02, 0xFF, 0xFF, 0, 0]) = .ok (.hdrWrRsp 0x02 65535 0 0) := by decide

/-- One word per clause, at the edge of the field it speaks of. -/
theorem witness_InvalidWordsAreRefused :
    ({ idle with input := [.sym (.op 0x7000000000000000)] }).input = [.sym (.op 0x7000000000000000)] ∧
    fieldOp 0x0000000000000000 = 0x0 ∧ fieldOp 0x7000000000000000 = 0x7 ∧ fieldZ1 0x2100000320000000 ≠ 0 ∧
    (fieldOp 0x1000000100000000 = 0x1 ∧ fieldLen 0x1000000100000000 ≠ 0) ∧
    (fieldOp 0x1000000080000000 = 0x1 ∧ fieldBuf 0x1000000080000000 ≠ 0) ∧
    (fieldOp 0x2001000320000000 = 0x2 ∧ fieldMode 0x2001000320000000 ≠ 0) ∧
    (fieldOp 0x8000000000000001 = 0x8 ∧ fieldBuf 0x8000000000000001 ≠ 0) ∧
    (fieldOp 0xC000000000000100 = 0xC ∧ 256 ≤ (fieldBuf 0xC000000000000100).toNat) ∧
    (fieldOp 0xD000000000000002 = 0xD ∧ 2 ≤ (fieldBuf 0xD000000000000002).toNat) := by decide

theorem witness_StepRunsTheDecodedInstruction :
    ({ idle with input := [.sym (.op 0xF000000000000000), .busError] }).input =
      .sym (.op 0xF000000000000000) :: [.busError] ∧ decode (.op 0xF000000000000000) = .ok .reset := by decide

/-- A difference of one either way, and both ends of the range. -/
theorem witness_BurstSizesAreMinima :
    (0 < (1 : Len).toNat ∧ 0 < (2 : Len).toNat) ∧ (0 < (65535 : Len).toNat ∧ 0 < (65534 : Len).toNat) := by decide

/-- The second conjunct meets the premise of the last clause. -/
theorem witness_TransmitRoundsMoveTheMessage :
    (∀ w ∈ ([3, 3, 16] : List Len), 0 < w) ∧ (0 : Len) < 7 ∧
    ((∀ w ∈ ([1, 65535] : List Len), 0 < w) ∧ (0 : Len) < 2 ∧ (2 : Len).toNat ≤ ([1, 65535] : List Len).length) := by
  simp

theorem witness_ReceiveRoundsMoveTheEvent :
    (∀ z ∈ ([4, 8] : List Len), 0 < z) ∧ (0 : Len) < 6 ∧
    ((∀ z ∈ ([1, 1] : List Len), 0 < z) ∧ (0 : Len) < 2 ∧ (2 : Len).toNat ≤ ([1, 1] : List Len).length) := by simp

theorem witness_SendWhileAvailableOpensTransmit :
    idle.inited = true ∧ (1 : Len) ≠ 0 ∧ (0xFFFFFFFF : Addr).toNat + (1 : Len).toNat ≤ 2 ^ 32 ∧
    idle.bus = .available := by decide

theorem witness_SendWhileBusyQueues :
    rxWait.inited = true ∧ (65535 : Len) ≠ 0 ∧ (0xFFFF0001 : Addr).toNat + (65535 : Len).toNat ≤ 2 ^ 32 ∧
    rxWait.bus = .busy := by decide

theorem witness_HostCommandsRefuseBadOperands :
    State.reset.inited = false ∧ (idle.inited = true ∧ (0 : Len) = 0) ∧
    (idle.inited = true ∧ (2 : Len) ≠ 0 ∧ 2 ^ 32 < (0xFFFFFFFF : Addr).toNat + (2 : Len).toNat) := by decide

theorem witness_EvtreqArmsReception :
    (txMore.inited = true ∧ (16 : Len) ≠ 0 ∧ (0x20000500 : Addr).toNat + (16 : Len).toNat ≤ 2 ^ 32 ∧
      ¬(txMore.bus = .busy ∧ txMore.dir = .rx)) ∧ ¬(idle.bus = .busy ∧ idle.dir = .rx) := by decide

theorem witness_EvtreqContinuesTheEvent :
    rxWait.inited = true ∧ (1 : Len) ≠ 0 ∧ (0xFFFFFFFF : Addr).toNat + (1 : Len).toNat ≤ 2 ^ 32 ∧ rxWait.bus = .busy ∧
    rxWait.dir = .rx ∧ rxWait.rxwait = true := by decide

theorem witness_EvtreqRefusedWhileReceiving :
    rxHdr.inited = true ∧ (8 : Len) ≠ 0 ∧ (0x20000300 : Addr).toNat + (8 : Len).toNat ≤ 2 ^ 32 ∧ rxHdr.bus = .busy ∧
    rxHdr.dir = .rx ∧ rxHdr.rxwait = false := by decide

theorem witness_InitResetsWhileAvailable : State.reset.bus = .available ∧ txHdr.bus = .busy := by decide

theorem witness_RdyirqOpensReceive :
    ready.inited = true ∧ ready.rdypend = true ∧ ready.rdyie = true ∧ ready.bus = .available := by decide

/-- A transmit sequence with a buffer armed and the line latched. -/
def txHdrReady : State :=
  { txHdr with rx := ⟨0x20000200, 4, 0, 0, false, true⟩, rdy := true, rdypend := true, rdyie := true }

theorem witness_RdyirqIgnoredWhileBusy :
    txHdrReady.inited = true ∧ txHdrReady.rdypend = true ∧ txHdrReady.rdyie = true ∧ txHdrReady.bus = .busy := by decide

theorem witness_ServicesNeedTheirLatch :
    State.reset.inited = false ∧ idle.inited = true ∧ idle.rdypend = false ∧
    ({ idle with rdypend := true }).rdyie = false ∧ idle.tctx = false ∧ idle.tcrx = false ∧ idle.topend = false := by
  decide

theorem witness_AcceptedReadHeaderProgramsTheBurst :
    rxHdrDone.inited = true ∧ rxHdrDone.tcrx = true ∧ phase rxHdrDone = some .rxHdr ∧
    rxHdrDone.hdrRx.b0 = rxHdrDone.par.readyCode ∧ leCount rxHdrDone.hdrRx.b3 rxHdrDone.hdrRx.b4 ≠ 0 := by decide

theorem witness_AcceptedWriteHeaderProgramsTheBurst :
    txHdrDone.inited = true ∧ txHdrDone.tcrx = true ∧ phase txHdrDone = some .txHdr ∧
    txHdrDone.hdrRx.b0 = txHdrDone.par.readyCode ∧ leCount txHdrDone.hdrRx.b1 txHdrDone.hdrRx.b2 ≠ 0 := by decide

/-- Not ready with a count, ready with none, and, on the read path, ready with none while the line is up. -/
theorem witness_NotReadyHeaderIsRetried :
    (let s := { txHdrDone with hdrRx := ⟨0xFF, 0xFF, 0xFF, 0xFF, 0xFF⟩ };
      s.inited = true ∧ s.tcrx = true ∧ phase s = some .txHdr ∧ s.hdrRx.b0 ≠ s.par.readyCode) ∧
    (let s := { txHdrDone with hdrRx := ⟨0x02, 0, 0, 0x07, 0⟩ };
      s.inited = true ∧ s.tcrx = true ∧ phase s = some .txHdr ∧ leCount s.hdrRx.b1 s.hdrRx.b2 = 0) ∧
    (let s := { rxSpurious with rdy := true };
      s.inited = true ∧ s.tcrx = true ∧ phase s = some .rxHdr ∧ leCount s.hdrRx.b3 s.hdrRx.b4 = 0 ∧
        ¬(leCount s.hdrRx.b3 s.hdrRx.b4 = 0 ∧ s.rdy = false)) ∧
    (let s := { rxHdrDone with hdrRx := ⟨0x00, 0, 0, 0x05, 0⟩ };
      s.inited = true ∧ s.tcrx = true ∧ phase s = some .rxHdr ∧ s.hdrRx.b0 ≠ s.par.readyCode ∧
        ¬(leCount s.hdrRx.b3 s.hdrRx.b4 = 0 ∧ s.rdy = false)) := by decide

/-- The state after it is given by an equation, which every state has a solution of; the three clauses. -/
theorem witness_SpuriousWakeClosesTheSequence :
    (rxSpurious.inited = true ∧ rxSpurious.tcrx = true ∧ phase rxSpurious = some .rxHdr ∧
      leCount rxSpurious.hdrRx.b3 rxSpurious.hdrRx.b4 = 0 ∧ rxSpurious.rdy = false) ∧
    (queued rxSpurious).pend.valid = true ∧ (rxSpurious.pend.valid = false ∧ rxSpurious.rx.valid = true) ∧
    (rxSpurious.pend.valid = false ∧ ({ rxSpurious with rx := ⟨0, 0, 0, 0, false, false⟩ }).rx.valid = false) := by decide

theorem witness_ReceiveEndNotifiesAndCloses :
    (rxLast.inited = true ∧ rxLast.tcrx = true ∧ phase rxLast = some .rxPayLast) ∧
    (queued rxLast).pend.valid = true ∧ rxLast.pend.valid = false := by decide

/-- The second conjunct meets the premise of the pointer's clause. -/
theorem witness_ReceiveContinuationWaitsForABuffer :
    (rxMore.inited = true ∧ rxMore.tcrx = true ∧ phase rxMore = some .rxPayMore) ∧
    rxMore.rx.ptr.toNat + rxMore.rx.burst.toNat < 2 ^ 32 := by decide

/-- A receive buffer that ends at the top of the address space (R204), full in mid-event: the step is taken all the same. -/
theorem test_rxdone_top_of_memory :
    nextIs (exec .rxdone { rxMore with rx := ⟨0xFFFFFFFC, 4, 2, 4, true, true⟩ })
      (fun t => phase t == some .rxWaitBuf && t.rx.size == 0 && t.trace == [.notifyRx 4 true]) = true := by decide

theorem witness_RxdoneOtherwiseClearsItsLatch :
    (txMore.inited = true ∧ txMore.tcrx = true ∧ phase txMore = some .txPayMore) ∧
    (txLast.inited = true ∧ txLast.tcrx = true ∧ phase txLast = some .txPayLast) ∧
    (let s := { rxWait with tcrx := true }; s.inited = true ∧ s.tcrx = true ∧ phase s = some .rxWaitBuf) ∧
    (let s := { idle with tcrx := true }; s.inited = true ∧ s.tcrx = true ∧ phase s = some .idle) ∧
    (let s := { txLast with dir := .none }; s.inited = true ∧ s.tcrx = true ∧ phase s = none) := by decide

theorem witness_TransmitContinuationOpensTheNextRound :
    (txMore.inited = true ∧ txMore.tctx = true ∧ phase txMore = some .txPayMore) ∧
    txMore.tx.ptr.toNat + txMore.tx.burst.toNat < 2 ^ 32 ∧ StateInv txMore :=
  ⟨⟨rfl, rfl, rfl⟩, by decide, inv_txMore⟩

theorem witness_TransmitEndNotifiesAndCloses :
    (txLast.inited = true ∧ txLast.tctx = true ∧ phase txLast = some .txPayLast) ∧
    (queued txLast).pend.valid = true ∧
    (txLast.pend.valid = false ∧ ({ txLast with rx := ⟨0x20000200, 4, 0, 0, false, true⟩ }).rx.valid = true) ∧
    txLast.rx.valid = false := by decide

theorem witness_TxdoneOtherwiseClearsItsLatch :
    (txHdrDone.inited = true ∧ txHdrDone.tctx = true ∧ phase txHdrDone = some .txHdr) ∧
    (rxHdrDone.inited = true ∧ rxHdrDone.tctx = true ∧ phase rxHdrDone = some .rxHdr) ∧
    (rxMore.inited = true ∧ rxMore.tctx = true ∧ phase rxMore = some .rxPayMore) ∧
    (rxLast.inited = true ∧ rxLast.tctx = true ∧ phase rxLast = some .rxPayLast) ∧
    (rxWait.inited = true ∧ rxWait.tctx = true ∧ phase rxWait = some .rxWaitBuf) ∧
    (let s := { idle with tctx := true }; s.inited = true ∧ s.tctx = true ∧ phase s = some .idle) ∧
    (let s := { txLast with rxwait := true }; s.inited = true ∧ s.tctx = true ∧ phase s = none) := by decide

theorem witness_TmrexpExpiresAnArmedTimer : txHdr.tmrarm = true ∧ idle.tmrarm = false := by decide

theorem witness_TimeoutReportsAndChangesNothingElse :
    idle.inited = true ∧ ({ txHdr with topend := true }).topend = true ∧ txHdr.topend = false := by decide

/-- A header exchange at its last byte; a receive burst; a transmit burst from unwritten and from written memory. -/
theorem witness_XchgMovesOneByteEachWay :
    (let s := { txHdr with txch := ⟨.tmplWr, 4, 1, true, true⟩, rxch := ⟨.hdr, 4, 1, true, true⟩ };
      s.cs = true ∧ s.txch.en = true ∧ s.rxch.en = true ∧ s.txch.cnt ≠ 0 ∧ s.rxch.cnt ≠ 0 ∧ s.txch.addr.toNat < 5 ∧
        s.rxch.addr.toNat < 5) ∧
    (let s := { rxMore with txch := ⟨.dummy, 0, 1, false, true⟩, rxch := ⟨.mem, 0xFFFFFFFF, 1, true, true⟩ };
      s.cs = true ∧ s.txch.en = true ∧ s.rxch.en = true ∧ s.txch.cnt ≠ 0 ∧ s.rxch.cnt ≠ 0 ∧ s.rxch.sel = .mem) ∧
    (let s := { txMore with txch := ⟨.mem, 0x20000103, 1, true, true⟩, rxch := ⟨.sink, 0, 1, false, true⟩ };
      s.cs = true ∧ s.txch.en = true ∧ s.rxch.en = true ∧ s.txch.cnt ≠ 0 ∧ s.rxch.cnt ≠ 0 ∧ s.txch.sel = .mem ∧
        Memory.read? s.mem s.txch.addr.toNat = none ∧
        Memory.read? [(0x20000103, 0xA3)] s.txch.addr.toNat = some 0xA3) := by decide

/-- Each way of being disabled; an index of 5 on each side. -/
theorem witness_XchgStopsWhereNotEnabled :
    idle.cs = false ∧ ({ txHdr with txch := { txHdr.txch with en := false } }).txch.en = false ∧
    ({ txHdr with rxch := { txHdr.rxch with en := false } }).rxch.en = false ∧ txHdrDone.txch.cnt = 0 ∧
    txHdrDone.rxch.cnt = 0 ∧
    (let s := { txHdr with txch := ⟨.tmplWr, 5, 1, true, true⟩ };
      s.cs = true ∧ s.txch.en = true ∧ s.rxch.en = true ∧ s.txch.cnt ≠ 0 ∧ s.rxch.cnt ≠ 0 ∧ s.txch.sel = .tmplWr ∧
        5 ≤ s.txch.addr.toNat) ∧
    (let s := { rxHdr with rxch := ⟨.hdr, 5, 1, true, true⟩ };
      s.cs = true ∧ s.txch.en = true ∧ s.rxch.en = true ∧ s.txch.cnt ≠ 0 ∧ s.rxch.cnt ≠ 0 ∧ s.rxch.sel = .hdr ∧
        5 ≤ s.rxch.addr.toNat) := by decide

theorem witness_ReceiveBurstStoresTheBytesInOrder :
    rxHdrDone.cs = true ∧ ([0xAA, 0xBB] : List Byte).length = (2 : Len).toNat ∧ 0 < (2 : Len).toNat ∧
    (0xFFFFFFFE : Addr).toNat + (2 : Len).toNat ≤ 2 ^ 32 := by decide

theorem witness_TransmitBurstSendsTheBytesInOrder :
    (let s := { txHdrDone with mem := [(0xFFFFFFFF, 0x5A)] };
    s.cs = true ∧ ([0x5A] : List Byte).length = (1 : Len).toNat ∧ ([0x00] : List Byte).length = (1 : Len).toNat ∧
    0 < (1 : Len).toNat ∧ (0xFFFFFFFF : Addr).toNat + (1 : Len).toNat ≤ 2 ^ 32 ∧
    (∀ k (h : k < ([0x5A] : List Byte).length),
      Memory.read? s.mem ((0xFFFFFFFF : Addr).toNat + k) = some ([0x5A] : List Byte)[k])) := by decide

theorem witness_ReadResponseFillsTheHeaderBuffer :
    phase rxHdr = some .rxHdr ∧ rxHdr.cs = true ∧ rxHdr.txch = ⟨.tmplRd, 0, 5, true, true⟩ ∧
    rxHdr.rxch = ⟨.hdr, 0, 5, true, true⟩ := by decide

theorem witness_WriteResponseFillsTheHeaderBuffer :
    phase txHdr = some .txHdr ∧ txHdr.cs = true ∧ txHdr.txch = ⟨.tmplWr, 0, 5, true, true⟩ ∧
    txHdr.rxch = ⟨.hdr, 0, 5, true, true⟩ := by decide

theorem witness_HeaderCommandsSendTheTemplate :
    (rxHdr.cs = true ∧ rxHdr.rxch = ⟨.hdr, 0, 5, true, true⟩ ∧ phase rxHdr = some .rxHdr ∧
      rxHdr.txch = ⟨.tmplRd, 0, 5, true, true⟩) ∧
    (txHdr.cs = true ∧ txHdr.rxch = ⟨.hdr, 0, 5, true, true⟩ ∧ phase txHdr = some .txHdr ∧
      txHdr.txch = ⟨.tmplWr, 0, 5, true, true⟩) := by decide

theorem witness_HeaderRowsNeedAFreshExchange :
    ¬(phase rxHdrDone = some .rxHdr ∧ rxHdrDone.cs = true ∧ rxHdrDone.txch = ⟨.tmplRd, 0, 5, true, true⟩ ∧
      rxHdrDone.rxch = ⟨.hdr, 0, 5, true, true⟩) ∧
    ¬(phase rxHdr = some .txHdr ∧ rxHdr.cs = true ∧ rxHdr.txch = ⟨.tmplWr, 0, 5, true, true⟩ ∧
      rxHdr.rxch = ⟨.hdr, 0, 5, true, true⟩) ∧
    (⟨0x0B, 0, 0, 0, 1⟩ : Hdr5) ≠ rxHdr.par.tmplRd ∧ (⟨0x0A, 0, 0, 0, 1⟩ : Hdr5) ≠ txHdr.par.tmplWr := by decide

/-- An instruction that is no XCHG, and an XCHG that stores. -/
theorem witness_OnlyXchgStoresToMemory :
    (∃ t, exec .txdone txMore = .next t) ∧
    (∃ t, exec (.xchg 0x04)
      { rxMore with txch := ⟨.dummy, 0, 1, false, true⟩, rxch := ⟨.mem, 0x20000203, 1, true, true⟩ } = .next t) :=
  ⟨⟨_, rfl⟩, ⟨_, rfl⟩⟩

/-- TMREXP is no writer of any field but the timer's, and RDYLVL no writer of those; RDYIRQ is none of TX and PEND, and
SEND none of RDYPEND. -/
theorem witness_FieldsChangeOnlyByTheirWriters :
    (∃ t, exec .tmrexp txHdr = .next t) ∧ loadsReset .tmrexp = false ∧ movesBytes .tmrexp = false ∧
    (∃ t, exec (.rdylvl true) txHdr = .next t) ∧ loadsReset (.rdylvl true) = false ∧
    (∃ t, exec .rdyirq ready = .next t) ∧ loadsReset .rdyirq = false ∧
    (∃ t, exec (.send 0x20000000 3) idle = .next t) ∧ loadsReset (.send 0x20000000 3) = false :=
  ⟨⟨_, rfl⟩, rfl, rfl, ⟨_, rfl⟩, rfl, ⟨_, rfl⟩, rfl, ⟨_, rfl⟩, rfl⟩

/-- An instruction, and a host store. -/
theorem witness_StepKeepsTheInvariant :
    (∃ t, StateInv rxMore ∧ step (rxMore.withFetchWord 64 0xA000000000000000) = .next t) ∧
    StateInv (rxMore.withFetchWord 64 0xA000000000000000) ∧
    (∃ t, step { idle with input := [.hostStore 0xFFFFFFFF 0x01] } = .next t) :=
  ⟨⟨_, inv_rxMore, rfl⟩, inv_rxMore, ⟨_, rfl⟩⟩

theorem witness_NoInstructionFaultsUnderTheInvariant : StateInv txLast := inv_txLast

theorem witness_PhasesFollowTheTransitionTable : StateInv txMore ∧ ∃ t, exec .txdone txMore = .next t :=
  ⟨inv_txMore, ⟨_, rfl⟩⟩

theorem witness_ChipSelectEffectsAlternate : StateInv (queued rxLast) ∧ ∃ t, exec .rxdone (queued rxLast) = .next t :=
  ⟨inv_queued_rxLast, ⟨_, rfl⟩⟩

theorem witness_VotesAreCastAndWithdrawnInTurn : StateInv txHdr ∧ ∃ t, exec .reset txHdr = .next t :=
  ⟨inv_txHdr, ⟨_, rfl⟩⟩

/-- Each closing case, and a step that closes nothing. -/
theorem witness_QueuedSendStartsAtTheClose :
    (StateInv (queued rxLast) ∧ (queued rxLast).pend.valid = true ∧ (∃ t, exec .rxdone (queued rxLast) = .next t) ∧
      Closes .rxdone (queued rxLast)) ∧
    (StateInv (queued txLast) ∧ (queued txLast).pend.valid = true ∧ (∃ t, exec .txdone (queued txLast) = .next t) ∧
      Closes .txdone (queued txLast)) ∧
    (StateInv (queued rxSpurious) ∧ (queued rxSpurious).pend.valid = true ∧
      (∃ t, exec .rxdone (queued rxSpurious) = .next t) ∧ Closes .rxdone (queued rxSpurious)) ∧
    ((∃ t, exec .txdone (queued rxLast) = .next t) ∧ ¬Closes .txdone (queued rxLast)) :=
  ⟨⟨inv_queued_rxLast, rfl, ⟨_, rfl⟩, by unfold Closes; decide⟩,
    ⟨inv_queued_txLast, rfl, ⟨_, rfl⟩, by unfold Closes; decide⟩,
    ⟨inv_queued_rxSpurious, rfl, ⟨_, rfl⟩, by unfold Closes; decide⟩,
    ⟨⟨_, rfl⟩, by unfold Closes; decide⟩⟩

theorem witness_CloseRebuildsTheReadyLatch :
    StateInv rxSpurious ∧ rxSpurious.bus = .busy ∧
    ∃ t, exec .rxdone rxSpurious = .next t ∧ t.bus = .available ∧ t.rx.valid = true :=
  ⟨inv_rxSpurious, rfl, ⟨_, rfl, rfl, rfl⟩⟩

theorem witness_TransmitMessageEndIsKept :
    StateInv txMore ∧ txMore.dir = .tx ∧ (∃ t, exec .txdone txMore = .next t ∧ t.dir = .tx) ∧
    ¬(Instr.txdone = .txdone ∧ phase txMore = some .txPayLast) :=
  ⟨inv_txMore, rfl, ⟨_, rfl, rfl⟩, by decide⟩

theorem witness_CompletionOrderDoesNotMatter :
    StateInv txHdrDone ∧ txHdrDone.tctx = true ∧ txHdrDone.tcrx = true := ⟨inv_txHdrDone, rfl, rfl⟩

theorem witness_ModeInfluencesNothing :
    (Instr.txdone ≠ .reset ∧ ∀ n, Instr.txdone ≠ .init n) ∧ ∃ n, Instr.init 1 = .init n :=
  ⟨⟨by decide, fun _ => by simp⟩, ⟨1, rfl⟩⟩

/-- Both sides of the last equivalence. -/
theorem witness_NosleepIsRaisedWhileASequenceIsOpen :
    (SpecInv txHdr ∧ txHdr.bus = .busy) ∧ (SpecInv idle ∧ idle.bus = .available) :=
  ⟨⟨inv_txHdr.1, rfl⟩, ⟨inv_idle.1, rfl⟩⟩

end Sys2Proof.Tests
end

section
/-! The received header's state code and count as numbers (R110, R151). -/

namespace Sys2Proof.Proofs.HeaderCodec
open Sys2Proof Sys2Proof.Machine

/-- Settles O9: each layout hands its two count bytes to `leCount`, which does not wrap at 16 bits (`leCount_toNat`). -/
theorem headerCountIsLittleEndian : Obligations.HeaderCountIsLittleEndian := by
  intro h
  have hcountRd : (hdrParse .rx h).2.toNat = h.b3.toNat + 256 * h.b4.toNat := leCount_toNat h.b3 h.b4
  have hcountWr : (hdrParse .tx h).2.toNat = h.b1.toNat + 256 * h.b2.toNat := leCount_toNat h.b1 h.b2
  exact ⟨hcountRd, hcountWr, rfl, rfl⟩

end Sys2Proof.Proofs.HeaderCodec
end

section
/-! The whole state the two chip-select procedures leave (R130, R131). -/

namespace Sys2Proof.Proofs.LineDriver
open Sys2Proof Sys2Proof.Machine

theorem csAssert_eq (s : State) : csAssert s = { s with cs := true, trace := s.trace ++ [.cs true] } := rfl

theorem csRelease_eq (s : State) : csRelease s = { s with cs := false, trace := s.trace ++ [.cs false] } := rfl

/-- Settles O14: each procedure writes `CS` and then emits the level, which touches the trace alone. -/
theorem chipSelectProceduresEmitTheLevel : Obligations.ChipSelectProceduresEmitTheLevel :=
  fun s => ⟨csAssert_eq s, csRelease_eq s⟩

end Sys2Proof.Proofs.LineDriver
end

section
/-! `Go`, and which of the three results `Classify` gives (R152, R153). -/

namespace Sys2Proof.Proofs.HeaderCodec
open Sys2Proof Sys2Proof.Machine

theorem go_eq_true_iff_toNat (p : Params) (state : Byte) (count : Len) :
    go p state count = true ↔ state = p.readyCode ∧ 0 < count.toNat := by
  simp only [go_iff, BitVec.lt_def, BitVec.ofNat_eq_ofNat, BitVec.toNat_zero]

/-- An accepted header has a count above 0, so it never meets the spurious case's condition. -/
theorem not_spurious_of_go {p : Params} {d : Way} {state : Byte} {count : Len} {rdy : Bool}
    (hg : go p state count = true) : ¬(d = .rx ∧ count = 0 ∧ rdy = false) := by
  rintro ⟨-, hc, -⟩
  exact len_not_pos.mpr hc ((go_iff p state count).mp hg).2

/-- The three rows of R153's table, each result with the condition it is given under. -/
theorem classify_cases (p : Params) (d : Way) (state : Byte) (count : Len) (rdy : Bool) :
    (classify p d state count rdy = .accept ∧ go p state count = true ∧ ¬(d = .rx ∧ count = 0 ∧ rdy = false)) ∨
    (classify p d state count rdy = .spurious ∧ go p state count = false ∧ d = .rx ∧ count = 0 ∧ rdy = false) ∨
    (classify p d state count rdy = .retry ∧ go p state count = false ∧ ¬(d = .rx ∧ count = 0 ∧ rdy = false)) := by
  by_cases hg : go p state count = true
  · exact .inl ⟨classify_of_go hg, hg, not_spurious_of_go hg⟩
  · have hg := Bool.eq_false_of_not_eq_true hg
    by_cases hs : d = .rx ∧ count = 0 ∧ rdy = false
    · obtain ⟨rfl, hc, hr⟩ := hs
      exact .inr (.inl ⟨classify_of_spurious hc hr, hg, rfl, hc, hr⟩)
    · exact .inr (.inr ⟨classify_of_retry hg hs, hg, hs⟩)

/-- Settles O10: the conditions of the three results exclude each other (`classify_cases`), so each result has its own. -/
theorem classifyDecidesByCodeCountAndLine : Obligations.ClassifyDecidesByCodeCountAndLine := by
  intro p d state count rdy
  refine ⟨go_eq_true_iff_toNat p state count, ?_⟩
  obtain ⟨hv, hg, hs⟩ | ⟨hv, hg, hs⟩ | ⟨hv, hg, hs⟩ := classify_cases p d state count rdy
  · rw [hv, hg, eq_false hs]; decide
  · rw [hv, hg, eq_true hs]; decide
  · rw [hv, hg, eq_false hs]; decide

end Sys2Proof.Proofs.HeaderCodec
end

section
/-! The whole state `Flush` and the arming procedures leave (R170, R171, R173). -/

namespace Sys2Proof.Proofs.TransferManager
open Sys2Proof Sys2Proof.Machine

theorem flush_eq (s : State) :
    flush s =
      { s with txch := { s.txch with en := false }, rxch := { s.rxch with en := false }, tctx := false, tcrx := false } := rfl

theorem headerTxChan_rx : headerTxChan .rx = ⟨.tmplRd, 0, 5, true, true⟩ := rfl

theorem headerTxChan_tx : headerTxChan .tx = ⟨.tmplWr, 0, 5, true, true⟩ := rfl

theorem headerRxChan_eq : headerRxChan = ⟨.hdr, 0, 5, true, true⟩ := rfl

/-- Settles O15: an arming procedure overwrites both channels that its `Flush` disabled (`armHeader_eq`,
`armPayloadRx_eq`), and the direction picks only the template of a header exchange. -/
theorem armingLeavesTheChannelsOfTheRule : Obligations.ArmingLeavesTheChannelsOfTheRule := by
  intro s p n
  refine ⟨flush_eq s, ?_, ?_, armPayloadRx_eq p n s⟩
  · rw [armHeader_eq, headerTxChan_rx, headerRxChan_eq]
  · rw [armHeader_eq, headerTxChan_tx, headerRxChan_eq]

end Sys2Proof.Proofs.TransferManager
end

section
/-! What RXDONE does at the end of a read-header exchange that is accepted (R205, R232, R233). -/

namespace Sys2Proof.Proofs.HostCommands
open Sys2Proof Sys2Proof.Machine

/-- RXDONE in RX_HDR completes the read header with its latch cleared (R232). -/
theorem exec_rxdone_of_rxHdr {s : State} (hi : s.inited = true) (hp : s.tcrx = true) (hph : phase s = some .rxHdr) :
    exec .rxdone s = .next (headerCompleteRx { s with tcrx := false }) := by
  change execRxdone s = _
  rw [execRxdone, enterService_next]
  exact ⟨hi, hp, by simp only [irqClear, phase_clear_tcrx, hph]⟩

/-- The accept arm of `HeaderCompleteRx` (R233). -/
theorem headerCompleteRx_of_accept {s : State} (hcode : s.hdrRx.b0 = s.par.readyCode)
    (hcount : leCount s.hdrRx.b3 s.hdrRx.b4 ≠ 0) :
    headerCompleteRx s = rxProgram (leCount s.hdrRx.b3 s.hdrRx.b4) s := by
  obtain ⟨-, -, hacc⟩ | ⟨hnot, -, -⟩ | ⟨hzero, -, -⟩ := headerCompleteRx_cases s
  · exact hacc
  · exact absurd hnot (not_or.mpr ⟨not_not.mpr hcode, hcount⟩)
  · exact absurd hzero hcount

/-- Settles O28: RXDONE completes the header, an accepted one is programmed as a burst, and `rxProgram_eq` has the whole
state that leaves. -/
theorem acceptedReadHeaderProgramsTheBurst : Obligations.AcceptedReadHeaderProgramsTheBurst := by
  intro s hi hp hph hcode hcount
  have hacc : headerCompleteRx { s with tcrx := false } = _ := headerCompleteRx_of_accept hcode hcount
  rw [exec_rxdone_of_rxHdr hi hp hph, hacc, rxProgram_eq]
  rfl

end Sys2Proof.Proofs.HostCommands
end

section
/-! What RXDONE does at the end of a header exchange that is not ready (R232 to R234, R236). -/

namespace Sys2Proof.Proofs.EventHandlers
open Sys2Proof Sys2Proof.Machine

/-- RXDONE in TX_HDR completes the write header with its latch cleared (R232). -/
theorem exec_rxdone_of_txHdr {s : State} (hi : s.inited = true) (hp : s.tcrx = true) (hph : phase s = some .txHdr) :
    exec .rxdone s = .next (headerCompleteTx { s with tcrx := false }) := by
  change execRxdone s = _
  rw [execRxdone, enterService_next]
  exact ⟨hi, hp, by simp only [irqClear, phase_clear_tcrx, hph]⟩

/-- The two conditions `Go` separates (R152). -/
theorem ready_excludes_not_ready {p : Params} {state : Byte} {count : Len} (hcode : state = p.readyCode)
    (hpos : 0 < count) : ¬(state ≠ p.readyCode ∨ count = 0) :=
  not_or.mpr ⟨not_not.mpr hcode, fun hzero => len_not_pos.mpr hzero hpos⟩

/-- The retry arm of `HeaderCompleteTx` (R234). -/
theorem headerCompleteTx_of_not_ready {s : State}
    (hnot : s.hdrRx.b0 ≠ s.par.readyCode ∨ leCount s.hdrRx.b1 s.hdrRx.b2 = 0) : headerCompleteTx s = retry .tx s := by
  obtain ⟨hcode, hpos, -⟩ | ⟨-, hretry⟩ := headerCompleteTx_cases s
  · exact absurd hnot (ready_excludes_not_ready hcode hpos)
  · exact hretry

/-- The retry arm of `HeaderCompleteRx` (R233), the spurious case shut out. -/
theorem headerCompleteRx_of_not_ready {s : State}
    (hnot : s.hdrRx.b0 ≠ s.par.readyCode ∨ leCount s.hdrRx.b3 s.hdrRx.b4 = 0)
    (hspur : ¬(leCount s.hdrRx.b3 s.hdrRx.b4 = 0 ∧ s.rdy = false)) : headerCompleteRx s = retry .rx s := by
  obtain ⟨hcode, hpos, -⟩ | ⟨-, -, hretry⟩ | ⟨hzero, hrdy, -⟩ := headerCompleteRx_cases s
  · exact absurd hnot (ready_excludes_not_ready hcode hpos)
  · exact hretry
  · exact absurd ⟨hzero, hrdy⟩ hspur

/-- Settles O30: RXDONE completes the header, one that is not ready is retried on either path, and `retry_eq` has the
whole state that leaves. -/
theorem notReadyHeaderIsRetried : Obligations.NotReadyHeaderIsRetried := by
  intro s hi hp
  constructor
  · intro hph hnot
    have hretry : headerCompleteTx { s with tcrx := false } = _ := headerCompleteTx_of_not_ready hnot
    rw [exec_rxdone_of_txHdr hi hp hph, hretry, retry_eq, TransferManager.headerTxChan_tx,
      TransferManager.headerRxChan_eq]
  · intro hph hnot hspur
    have hretry : headerCompleteRx { s with tcrx := false } = _ := headerCompleteRx_of_not_ready hnot hspur
    rw [HostCommands.exec_rxdone_of_rxHdr hi hp hph, hretry, retry_eq, TransferManager.headerTxChan_rx,
      TransferManager.headerRxChan_eq]

end Sys2Proof.Proofs.EventHandlers
end

section
/-! The expiry of the timer (R247). -/

namespace Sys2Proof.Proofs.EventHandlers
open Sys2Proof Sys2Proof.Machine

theorem execTmrexp_of_armed {s : State} (ha : s.tmrarm = true) :
    execTmrexp s = .next { s with tmrarm := false, topend := true } := by
  rw [execTmrexp, if_neg (by simp [ha])]

theorem execTmrexp_of_not_armed {s : State} (ha : s.tmrarm = false) : execTmrexp s = .refused .notArmed := by
  rw [execTmrexp, if_pos ha]

/-- Settles O38: `TMRARM` alone decides between the two arms. -/
theorem tmrexpExpiresAnArmedTimer : Obligations.TmrexpExpiresAnArmedTimer :=
  fun _ => ⟨execTmrexp_of_armed, execTmrexp_of_not_armed⟩

end Sys2Proof.Proofs.EventHandlers
end

section
/-! The decoder and the encoder undo each other (R101 to R108). -/

namespace Sys2Proof.Proofs.Encoding
open Sys2Proof

theorem decodeWord_opWord (op : BitVec 4) (mode : Byte) (len : Len) (buf : Addr) :
    decodeWord (opWord op mode len buf) = decodeOp op.toNat mode len buf := by
  simp [decodeWord]

theorem requireZero_eq_ok {b : Bool} {i j : Instr} : requireZero b i = .ok j ↔ b = true ∧ i = j := by
  cases b <;> simp [requireZero]

/-! ### The two operands narrower than `buf` -/

theorem byte_of_setWidth (miso : Byte) :
    (miso.setWidth 32).extractLsb' 8 24 = 0 ∧ (miso.setWidth 32).extractLsb' 0 8 = miso := by
  have hlt := miso.isLt
  constructor <;> apply BitVec.eq_of_toNat_eq <;>
    simp [BitVec.extractLsb'_toNat, Nat.shiftRight_eq_div_pow] <;> omega

theorem setWidth_of_byte {buf : Addr} (h : buf.extractLsb' 8 24 = 0) :
    (buf.extractLsb' 0 8).setWidth 32 = buf := by
  have hhigh := congrArg BitVec.toNat h
  have hlt := buf.isLt
  apply BitVec.eq_of_toNat_eq
  simp [BitVec.extractLsb'_toNat, Nat.shiftRight_eq_div_pow] at hhigh ⊢
  omega

theorem level_of_ite (level : Bool) :
    (if level then 1 else 0 : Addr).extractLsb' 1 31 = 0 ∧ (if level then 1 else 0 : Addr).getLsbD 0 = level := by
  cases level <;> decide

theorem ite_of_level {buf : Addr} (h : buf.extractLsb' 1 31 = 0) : (if buf.getLsbD 0 then 1 else 0 : Addr) = buf := by
  have hhigh := congrArg BitVec.toNat h
  have hlt := buf.isLt
  simp [BitVec.extractLsb'_toNat, Nat.shiftRight_eq_div_pow] at hhigh
  have hbit : buf = 0 ∨ buf = 1 := by
    rw [← BitVec.toNat_inj, ← BitVec.toNat_inj]
    simp
    omega
  obtain rfl | rfl := hbit <;> decide

/-! ### Encoding, then decoding -/

/-- Settles O3: an operation word gives its four fields back (`decodeWord_opWord`), a header string its five bytes. -/
theorem decodeOfEncodeIsIdentity : Obligations.DecodeOfEncodeIsIdentity := by
  intro i
  cases i with
  | xchg miso =>
    obtain ⟨hhigh, hlow⟩ := byte_of_setWidth miso
    simp only [encode, decode, decodeWord_opWord]
    change requireZero _ _ = _
    rw [hhigh, hlow]
    rfl
  | rdylvl level =>
    obtain ⟨hhigh, hlow⟩ := level_of_ite level
    simp only [encode, decode, decodeWord_opWord]
    change requireZero _ _ = _
    rw [hhigh, hlow]
    rfl
  | hdrRdRsp | hdrWrRsp | hdrRdCmd | hdrWrCmd =>
    simp [encode, decode, decodeHeader, decodeHdr, hdrList, rdRspBytes, wrRspBytes]
  | _ => simp only [encode, decode, decodeWord_opWord]; rfl

/-! ### Decoding, then encoding -/

theorem encode_of_decodeOp {op : BitVec 4} {mode : Byte} {len : Len} {buf : Addr} {i : Instr}
    (h : decodeOp op.toNat mode len buf = .ok i) : encode i = .op (opWord op mode len buf) := by
  obtain ⟨n, hop⟩ : ∃ n, op.toNat = n := ⟨_, rfl⟩
  have hop' : op = BitVec.ofNat 4 n := by rw [← hop, BitVec.ofNat_toNat, BitVec.setWidth_eq]
  rw [hop] at h
  unfold decodeOp at h
  split at h
  case h_12 => cases h
  all_goals
    rw [requireZero_eq_ok] at h
    obtain ⟨hz, rfl⟩ := h
    simp only [Bool.and_eq_true, beq_iff_eq] at hz
  case h_8 =>
    obtain ⟨⟨rfl, rfl⟩, hhigh⟩ := hz
    rw [encode, setWidth_of_byte hhigh, hop']
    rfl
  case h_9 =>
    obtain ⟨⟨rfl, rfl⟩, hhigh⟩ := hz
    rw [encode, ite_of_level hhigh, hop']
    rfl
  all_goals
    simp only [encode, hz, hop']
    rfl

/-- Settles O4: `z1` is 0 in a word that decodes, so the word is its other fields put together (`opWord_fields`). -/
theorem encodeOfDecodeIsIdentity : Obligations.EncodeOfDecodeIsIdentity := by
  intro x i h
  cases x with
  | op w =>
    simp only [decode, decodeWord] at h
    split at h
    · rename_i hz1
      rw [encode_of_decodeOp h, opWord_fields w hz1]
    · cases h
  | header f bytes =>
    simp only [decode, decodeHeader] at h
    split at h
    · obtain rfl := Except.ok.inj h
      cases f <;> simp [decodeHdr, encode, hdrList, rdRspBytes, wrRspBytes]
    · cases h

end Sys2Proof.Proofs.Encoding
end

section
/-! Which operation words decode (R101 to R105), and the opcode table's rows read field by field. -/

namespace Sys2Proof.Proofs.OpcodeTable
open Sys2Proof Sys2Proof.Machine

/-! ### The words R105 accepts -/

/-- The operation codes whose operation has no operand (R102, R103). -/
def plainOps : List (BitVec 4) := [0x8, 0x9, 0xA, 0xB, 0xE, 0xF]

/-- R105 on the fields other than `z1`: an operation of R103, with 0 in every field it does not use. -/
def FieldsValid (op : BitVec 4) (mode : Byte) (len : Len) (buf : Addr) : Prop :=
  (op = 0x1 ∧ len = 0 ∧ buf = 0) ∨ ((op = 0x2 ∨ op = 0x3) ∧ mode = 0) ∨
  (op ∈ plainOps ∧ mode = 0 ∧ len = 0 ∧ buf = 0) ∨
  (op = 0xC ∧ mode = 0 ∧ len = 0 ∧ buf.toNat < 256) ∨ (op = 0xD ∧ mode = 0 ∧ len = 0 ∧ buf.toNat < 2)

/-- Nothing above the low byte: XCHG's operand. -/
theorem high_bits_zero_iff_lt_256 (buf : Addr) : buf.extractLsb' 8 24 = 0#24 ↔ buf.toNat < 256 := by
  have := buf.isLt
  rw [← BitVec.toNat_inj, BitVec.extractLsb'_toNat, Nat.shiftRight_eq_div_pow, BitVec.toNat_zero]
  omega

/-- Nothing above the lowest bit: RDYLVL's operand. -/
theorem high_bits_zero_iff_lt_2 (buf : Addr) : buf.extractLsb' 1 31 = 0#31 ↔ buf.toNat < 2 := by
  have := buf.isLt
  rw [← BitVec.toNat_inj, BitVec.extractLsb'_toNat, Nat.shiftRight_eq_div_pow, BitVec.toNat_zero]
  omega

/-- The sixteen operation codes. -/
theorem op_eq_ofNat (op : BitVec 4) : ∃ n < 16, op = BitVec.ofNat 4 n := ⟨op.toNat, op.isLt, by simp⟩

theorem decodeOp_isOk_iff (op : BitVec 4) (mode : Byte) (len : Len) (buf : Addr) :
    (∃ i, decodeOp op.toNat mode len buf = .ok i) ↔ FieldsValid op mode len buf := by
  obtain ⟨n, hn, rfl⟩ := op_eq_ofNat op
  interval_cases n <;>
    simp [decodeOp, FieldsValid, plainOps, Encoding.requireZero_eq_ok, and_assoc, high_bits_zero_iff_lt_256,
      high_bits_zero_iff_lt_2]

theorem decodeWord_isOk_iff (w : OpWord) :
    (∃ i, decodeWord w = .ok i) ↔
      fieldZ1 w = 0 ∧ FieldsValid (fieldOp w) (fieldMode w) (fieldLen w) (fieldBuf w) := by
  rw [← decodeOp_isOk_iff]
  unfold decodeWord
  split
  · exact ⟨fun h => ⟨‹_›, h⟩, fun h => h.2⟩
  · exact ⟨nofun, fun h => absurd h.1 ‹_›⟩

/-! ### The rows of the table -/

theorem word_eq_iff (v w : OpWord) :
    v = w ↔ fieldOp v = fieldOp w ∧ fieldZ1 v = fieldZ1 w ∧ fieldMode v = fieldMode w ∧ fieldLen v = fieldLen w ∧
      fieldBuf v = fieldBuf w := by
  have := v.isLt
  have := w.isLt
  simp only [← BitVec.toNat_inj, fieldOp, fieldMode, fieldLen, fieldBuf, fieldZ1, BitVec.extractLsb'_toNat,
    Nat.shiftRight_eq_div_pow]
  omega

/-- A row covers a word field by field. -/
theorem covers_iff (r : OpRow) (w : OpWord) :
    OpRow.covers r w = true ↔
      fieldOp w &&& fieldOp r.mask = fieldOp r.pattern ∧ fieldZ1 w &&& fieldZ1 r.mask = fieldZ1 r.pattern ∧
      fieldMode w &&& fieldMode r.mask = fieldMode r.pattern ∧ fieldLen w &&& fieldLen r.mask = fieldLen r.pattern ∧
      fieldBuf w &&& fieldBuf r.mask = fieldBuf r.pattern := by
  rw [OpRow.covers, beq_iff_eq, word_eq_iff]
  simp only [fieldOp, fieldMode, fieldLen, fieldBuf, fieldZ1, BitVec.extractLsb'_and]

/-- XCHG's mask on the lowest field. -/
theorem and_mask_zero_iff_lt_256 (buf : Addr) : buf &&& 0xFFFFFF00#32 = 0#32 ↔ buf.toNat < 256 := by
  have := buf.isLt
  have hmask : buf &&& 0xFFFFFF00#32 = buf >>> 8 <<< 8 := (BitVec.shiftLeft_ushiftRight (x := buf) (n := 8)).symm
  simp only [hmask, ← BitVec.toNat_inj, BitVec.toNat_shiftLeft, BitVec.toNat_ushiftRight, Nat.shiftLeft_eq,
    Nat.shiftRight_eq_div_pow, BitVec.toNat_zero]
  omega

/-- RDYLVL's mask on the lowest field. -/
theorem and_mask_zero_iff_lt_2 (buf : Addr) : buf &&& 0xFFFFFFFE#32 = 0#32 ↔ buf.toNat < 2 := by
  have := buf.isLt
  have hmask : buf &&& 0xFFFFFFFE#32 = buf >>> 1 <<< 1 := (BitVec.shiftLeft_ushiftRight (x := buf) (n := 1)).symm
  simp only [hmask, ← BitVec.toNat_inj, BitVec.toNat_shiftLeft, BitVec.toNat_ushiftRight, Nat.shiftLeft_eq,
    Nat.shiftRight_eq_div_pow, BitVec.toNat_zero]
  omega

theorem and_ones_op (op : BitVec 4) : op &&& 15#4 = op := BitVec.and_allOnes
theorem and_ones_mode (mode : Byte) : mode &&& 255#8 = mode := BitVec.and_allOnes
theorem and_ones_len (len : Len) : len &&& 65535#16 = len := BitVec.and_allOnes
theorem and_ones_buf (buf : Addr) : buf &&& 4294967295#32 = buf := BitVec.and_allOnes

theorem exists_row_iff (w : OpWord) :
    (∃ r ∈ opTable, OpRow.covers r w = true) ↔
      fieldZ1 w = 0 ∧ FieldsValid (fieldOp w) (fieldMode w) (fieldLen w) (fieldBuf w) := by
  simp only [opTable, List.mem_cons, List.not_mem_nil, or_false, exists_eq_or_imp, exists_eq_left, covers_iff]
  generalize fieldOp w = op, fieldZ1 w = z1, fieldMode w = mode, fieldLen w = len, fieldBuf w = buf
  simp only [fieldOp, fieldZ1, fieldMode, fieldLen, fieldBuf]
  obtain ⟨n, hn, rfl⟩ := op_eq_ofNat op
  interval_cases n <;>
    simp [FieldsValid, plainOps, and_ones_op, and_ones_mode, and_ones_len, and_ones_buf, and_mask_zero_iff_lt_256,
      and_mask_zero_iff_lt_2]

/-- Every row's mask keeps the operation code. -/
theorem fieldOp_of_covers {r : OpRow} {w : OpWord} (hr : r ∈ opTable) (h : OpRow.covers r w = true) :
    fieldOp w = fieldOp r.pattern := by
  have hmask : ∀ r ∈ opTable, fieldOp r.mask = 15#4 := by decide
  obtain ⟨hop, -⟩ := (covers_iff r w).1 h
  rwa [hmask r hr, and_ones_op] at hop

/-- The operation code tells the rows apart. -/
theorem row_eq_of_fieldOp_eq : ∀ r ∈ opTable, ∀ r' ∈ opTable, fieldOp r.pattern = fieldOp r'.pattern → r = r' := by
  decide

/-- Settles O5: the decoder and the table both accept exactly the words R105 accepts (`FieldsValid`). -/
theorem decoderAgreesWithOpcodeTable : Obligations.DecoderAgreesWithOpcodeTable := by
  refine ⟨fun w => (decodeWord_isOk_iff w).trans (exists_row_iff w).symm, fun w r hr r' hr' h h' => ?_⟩
  exact row_eq_of_fieldOp_eq r hr r' hr' ((fieldOp_of_covers hr h).symm.trans (fieldOp_of_covers hr' h'))

/-! ### What a step does with its oldest input (R13, R105) -/

theorem step_of_decode_ok {s : State} {x : Symbol} {rest : List Input} {i : Instr} (hin : s.input = .sym x :: rest)
    (hd : decode x = .ok i) : step s = exec i { s with input := rest } := by
  simp [step, fetch, hin, hd]

theorem step_of_decode_error {s : State} {x : Symbol} {rest : List Input} (hin : s.input = .sym x :: rest)
    (hd : ¬∃ i, decode x = .ok i) : step s = .refused .invalidWord := by
  cases hx : decode x with
  | ok i => exact absurd ⟨i, hx⟩ hd
  | error e => simp [step, fetch, hin, hx]

/-- Settles O8: `fetch` hands over the decoded instruction and nothing is around it. -/
theorem stepRunsTheDecodedInstruction : Obligations.StepRunsTheDecodedInstruction :=
  fun _ _ _ _ hin hd => step_of_decode_ok hin hd

/-- Settles O6: each clause contradicts what R105 asks of a word that decodes (`decodeWord_isOk_iff`). -/
theorem invalidWordsAreRefused : Obligations.InvalidWordsAreRefused := by
  intro s w rest hin hbad
  refine step_of_decode_error hin fun hok => ?_
  obtain ⟨hz1, hvalid⟩ := (decodeWord_isOk_iff w).1 hok
  generalize fieldOp w = op, fieldMode w = mode, fieldLen w = len, fieldBuf w = buf at hbad hvalid
  obtain ⟨n, hn, rfl⟩ := op_eq_ofNat op
  interval_cases n <;> simp [FieldsValid, plainOps, hz1] at hbad hvalid <;> grind

/-- Settles O7: the decoder computes. -/
theorem sampleSymbolsDecode : Obligations.SampleSymbolsDecode := by
  unfold Obligations.SampleSymbolsDecode
  decide

end Sys2Proof.Proofs.OpcodeTable
end

section
/-! Burst arithmetic: one burst, and the rounds of bursts that move a whole message (R154 to R157). -/

namespace Sys2Proof.Proofs.Bursts
open Sys2Proof Sys2Proof.Machine

theorem len_pos_iff {n : Len} : 0 < n ↔ 0 < n.toNat := by simp [BitVec.lt_def]

theorem len_pos_of_ne_zero {n : Len} (h : n ≠ 0) : 0 < n := not_not.1 (mt len_not_pos.1 h)

theorem len_eq_zero_iff {n : Len} : n = 0 ↔ n.toNat = 0 := by simp [← BitVec.toNat_inj]

/-! ### One burst -/

theorem txBurst_size_add_rem (count rem : Len) :
    (txBurst count rem).size.toNat + (txBurst count rem).rem.toNat = rem.toNat := by
  obtain ⟨hsize, hrem⟩ := txBurst_toNat count rem
  omega

theorem txBurst_size_pos {count rem : Len} (hc : 0 < count) (hr : 0 < rem) : 0 < (txBurst count rem).size := by
  obtain ⟨hsize, -⟩ := txBurst_toNat count rem
  rw [len_pos_iff] at *
  omega

/-- A burst has more to follow exactly when something is left. -/
theorem txBurst_more_iff_rem_pos (count rem : Len) : (txBurst count rem).more = true ↔ 0 < (txBurst count rem).rem := by
  obtain ⟨-, hrem⟩ := txBurst_toNat count rem
  rw [txBurst_more, len_pos_iff, hrem, BitVec.lt_def]
  omega

theorem txBurst_more_eq_false_iff (count rem : Len) :
    (txBurst count rem).more = false ↔ (txBurst count rem).rem = 0 := by
  rw [← Bool.not_eq_true, txBurst_more_iff_rem_pos, len_not_pos]

theorem umin_comm (a b : Len) : umin a b = umin b a := by
  rw [← BitVec.toNat_inj, umin_toNat, umin_toNat, min_comm]

/-- The two rules are one: the event is to the buffer what the message is to the window (R154, R155). -/
theorem rxBurst_eq_txBurst (total size : Len) : rxBurst total size = txBurst size total := by
  simp [rxBurst, txBurst, umin_comm]

theorem rxBurst_size_pos {total size : Len} (ht : 0 < total) (hs : 0 < size) : 0 < (rxBurst total size).size :=
  rxBurst_eq_txBurst total size ▸ txBurst_size_pos hs ht

theorem rxBurst_more_iff_rem_pos (total size : Len) : (rxBurst total size).more = true ↔ 0 < (rxBurst total size).rem :=
  rxBurst_eq_txBurst total size ▸ txBurst_more_iff_rem_pos size total

theorem rxBurst_more_eq_false_iff (total size : Len) :
    (rxBurst total size).more = false ↔ (rxBurst total size).rem = 0 :=
  rxBurst_eq_txBurst total size ▸ txBurst_more_eq_false_iff size total

theorem rxBurst_size_le (total size : Len) : (rxBurst total size).size ≤ size := by
  rw [BitVec.le_def, (rxBurst_toNat total size).1]
  exact min_le_right _ _

/-- An event that outlasts the buffer fills it. -/
theorem rxBurst_size_of_more {total size : Len} (h : (rxBurst total size).more = true) :
    (rxBurst total size).size = size := by
  rw [rxBurst_more, BitVec.lt_def] at h
  rw [← BitVec.toNat_inj, (rxBurst_toNat total size).1]
  exact min_eq_right h.le

/-- Settles O11: both bursts are minima of numbers (`txBurst_toNat`), and the rest is arithmetic. -/
theorem burstSizesAreMinima : Obligations.BurstSizesAreMinima := by
  intro a b ha hb
  rw [rxBurst_eq_txBurst]
  have hmore (c r : Len) : (txBurst c r).more = true ↔ c.toNat < r.toNat := txBurst_more c r
  have hzero (c r : Len) := (txBurst_more_eq_false_iff c r).symm
  obtain ⟨htsize, htrem⟩ := txBurst_toNat a b
  obtain ⟨hrsize, hrrem⟩ := txBurst_toNat b a
  refine ⟨⟨htsize, hmore a b, htrem, ?_, ?_, hzero a b⟩, ?_, hmore b a, ?_, ?_, ?_, hzero b a⟩ <;> omega

/-! ### Rounds of bursts -/

/-- What R157 says of the bursts that move `total` bytes: each at least 1, never more than the message together, and,
when there are `enough` rounds, all of it, with only the last burst having no more to follow. -/
def Conserves (bs : List Burst) (total : Len) (enough : Prop) : Prop :=
  (∀ b ∈ bs, 0 < b.size) ∧ movedBytes bs ≤ total.toNat ∧
    (enough → movedBytes bs = total.toNat ∧
      ∃ pre last, bs = pre ++ [last] ∧ last.more = false ∧ ∀ b ∈ pre, b.more = true)

/-- The last round: one burst, which takes all. -/
theorem conserves_last {b : Burst} {total : Len} {enough : Prop} (hpos : 0 < b.size) (hmore : b.more = false)
    (hsum : b.size.toNat = total.toNat) : Conserves [b] total enough := by
  refine ⟨by simpa using hpos, by simp [movedBytes, hsum], fun _ => ⟨by simp [movedBytes, hsum], [], b, rfl, hmore, ?_⟩⟩
  simp

/-- One more round in front of the rounds that move what it leaves. -/
theorem conserves_cons {b : Burst} {bs : List Burst} {total : Len} {enough enough' : Prop} (hpos : 0 < b.size)
    (hmore : b.more = true) (hsum : b.size.toNat + b.rem.toNat = total.toNat) (hrest : Conserves bs b.rem enough')
    (henough : enough → enough') : Conserves (b :: bs) total enough := by
  obtain ⟨hall, hle, hmoves⟩ := hrest
  have hmoved : movedBytes (b :: bs) = b.size.toNat + movedBytes bs := by simp [movedBytes]
  refine ⟨by simpa using ⟨hpos, hall⟩, by omega, fun he => ?_⟩
  obtain ⟨heq, pre, last, rfl, hlast, hpre⟩ := hmoves (henough he)
  exact ⟨by omega, b :: pre, last, rfl, hlast, by simpa using ⟨hmore, hpre⟩⟩

/-- Settles O12, by induction on the windows: a burst with more to follow leaves the rest to the later windows, and each
burst takes at least one byte, so as many windows as bytes are enough. -/
theorem transmitRoundsMoveTheMessage : Obligations.TransmitRoundsMoveTheMessage := by
  intro windows
  induction windows with
  | nil =>
    intro rem _ hrem
    rw [len_pos_iff] at hrem
    exact ⟨by simp [txRounds], by simp [txRounds, movedBytes], fun h => absurd h (by simp; omega)⟩
  | cons w rest ih =>
    intro rem hw hrem
    obtain ⟨hw, hrest⟩ := List.forall_mem_cons.1 hw
    have hpos := txBurst_size_pos hw hrem
    have hsum := txBurst_size_add_rem w rem
    rw [txRounds]
    split
    · rename_i hmore
      refine conserves_cons hpos hmore hsum (ih _ hrest ((txBurst_more_iff_rem_pos w rem).1 hmore)) fun h => ?_
      rw [len_pos_iff] at hpos
      rw [List.length_cons] at h
      omega
    · rename_i hmore
      rw [Bool.not_eq_true] at hmore
      have hzero := len_eq_zero_iff.1 ((txBurst_more_eq_false_iff w rem).1 hmore)
      exact conserves_last hpos hmore (by omega)

theorem rxRounds_eq_txRounds (sizes : List Len) (total : Len) : rxRounds sizes total = txRounds sizes total := by
  induction sizes generalizing total with
  | nil => rfl
  | cons z rest ih => simp only [rxRounds, txRounds, rxBurst_eq_txBurst, ih]

/-- Settles O13: the rounds of an event are those of a message (`rxRounds_eq_txRounds`). -/
theorem receiveRoundsMoveTheEvent : Obligations.ReceiveRoundsMoveTheEvent := by
  intro sizes total hz htotal
  rw [rxRounds_eq_txRounds]
  exact transmitRoundsMoveTheMessage sizes total hz htotal

end Sys2Proof.Proofs.Bursts
end

section
/-! One byte each way: the whole state an exchange leaves, and when there is one (R175). -/

namespace Sys2Proof.Proofs.Exchange
open Sys2Proof Sys2Proof.Machine

/-- Where the received byte goes: `HDR_RX`, nowhere, or host memory (R35). -/
def Stored (miso : Byte) (s : State) (hdr : Hdr5) (mem : Memory) : Prop :=
  (s.rxch.sel = .hdr ∧ Hdr5.set? s.hdrRx s.rxch.addr.toNat miso = some hdr ∧ mem = s.mem) ∨
  (s.rxch.sel = .sink ∧ hdr = s.hdrRx ∧ mem = s.mem) ∨
  (s.rxch.sel = .mem ∧ hdr = s.hdrRx ∧ mem = Memory.write s.mem s.rxch.addr.toNat miso)

/-- The state after one byte each way: both channels moved on, a latch set where a count reached 0 (R175, R178). -/
def exchanged (mosi miso : Byte) (hdr : Hdr5) (mem : Memory) (s : State) : State :=
  { s with
    txch := s.txch.next, rxch := s.rxch.next
    tctx := s.tctx || s.txch.next.cnt == 0, tcrx := s.tcrx || s.rxch.next.cnt == 0
    hdrRx := hdr, mem := mem
    draws := if readsUnwritten s then s.draws + 1 else s.draws
    trace := s.trace ++ [.wire mosi miso] }

theorem exchange_eq_next_iff {miso : Byte} {s t : State} :
    exchange miso s = .next t ↔
      exchangeEnabled s = true ∧ ∃ mosi hdr mem, mosiByte? s = some mosi ∧ Stored miso s hdr mem ∧
        t = exchanged mosi miso hdr mem s := by
  constructor
  · intro h
    obtain ⟨hen, mosi, u, hmosi, hstore, rfl⟩ := exchange_next h
    refine ⟨hen, mosi, u.hdrRx, u.mem, hmosi, ?_⟩
    obtain ⟨hsel, hdr, hset, rfl⟩ | ⟨hsel, rfl⟩ | ⟨hsel, rfl⟩ := storeMiso?_some hstore
    · exact ⟨.inl ⟨hsel, hset, rfl⟩, rfl⟩
    · exact ⟨.inr (.inl ⟨hsel, rfl, rfl⟩), rfl⟩
    · exact ⟨.inr (.inr ⟨hsel, rfl, rfl⟩), rfl⟩
  · rintro ⟨hen, mosi, hdr, mem, hmosi, ⟨hsel, hset, rfl⟩ | ⟨hsel, rfl, rfl⟩ | ⟨hsel, rfl, rfl⟩, rfl⟩
    · simp [exchange, hen, hmosi, storeMiso?, hsel, hset, advanceChannels, emit, exchanged]
    · simp [exchange, hen, hmosi, storeMiso?, hsel, advanceChannels, emit, exchanged]
    · simp [exchange, hen, hmosi, storeMiso?, hsel, advanceChannels, emit, exchanged]

/-! ### Five-byte buffers as lists -/

theorem get?_eq_hdrList (h : Hdr5) (i : Nat) : Hdr5.get? h i = (hdrList h)[i]? := by
  match i with
  | 0 | 1 | 2 | 3 | 4 => rfl
  | _ + 5 => rfl

theorem exists_set?_of_lt (h : Hdr5) {i : Nat} (v : Byte) (hi : i < 5) : ∃ b, Hdr5.set? h i v = some b := by
  match i, hi with
  | 0, _ | 1, _ | 2, _ | 3, _ | 4, _ => exact ⟨_, rfl⟩

theorem hdrList_of_set? {h b : Hdr5} {i : Nat} {v : Byte} (hs : Hdr5.set? h i v = some b) :
    hdrList b = (hdrList h).set i v := by
  match i, hs with
  | 0, hs | 1, hs | 2, hs | 3, hs | 4, hs =>
    obtain rfl := Option.some.inj hs
    rfl

theorem set?_eq_none_of_le (h : Hdr5) {i : Nat} (v : Byte) (hi : 5 ≤ i) : Hdr5.set? h i v = none := by
  match i, hi with
  | _ + 5, _ => rfl

/-! ### What an exchange stores -/

theorem exists_stored {s : State} (miso : Byte) (h : s.rxch.sel = .hdr → s.rxch.addr.toNat < 5) :
    ∃ hdr mem, Stored miso s hdr mem := by
  cases hsel : s.rxch.sel with
  | hdr =>
    obtain ⟨b, hb⟩ := exists_set?_of_lt s.hdrRx miso (h hsel)
    exact ⟨b, s.mem, .inl ⟨hsel, hb, rfl⟩⟩
  | sink => exact ⟨s.hdrRx, s.mem, .inr (.inl ⟨hsel, rfl, rfl⟩)⟩
  | mem => exact ⟨s.hdrRx, _, .inr (.inr ⟨hsel, rfl, rfl⟩)⟩

section Stored
variable {miso : Byte} {s : State} {hdr : Hdr5} {mem : Memory} (h : Stored miso s hdr mem)
include h

theorem stored_wf (hm : Memory.wf s.mem = true) : Memory.wf mem = true := by
  obtain ⟨-, -, rfl⟩ | ⟨-, -, rfl⟩ | ⟨-, -, rfl⟩ := h
  · exact hm
  · exact hm
  · exact Memory.wf_write _ _ hm

theorem stored_hdr (hs : s.rxch.sel = .hdr) : hdrList hdr = (hdrList s.hdrRx).set s.rxch.addr.toNat miso := by
  obtain ⟨-, hset, -⟩ | ⟨hsel, -⟩ | ⟨hsel, -⟩ := h
  · exact hdrList_of_set? hset
  · cases hs.symm.trans hsel
  · cases hs.symm.trans hsel

theorem stored_hdr_of_ne (hs : s.rxch.sel ≠ .hdr) : hdr = s.hdrRx := by
  obtain ⟨hsel, -⟩ | ⟨-, hhdr, -⟩ | ⟨-, hhdr, -⟩ := h
  · exact absurd hsel hs
  · exact hhdr
  · exact hhdr

theorem stored_read_same (hs : s.rxch.sel = .mem) : Memory.read? mem s.rxch.addr.toNat = some miso := by
  obtain ⟨hsel, -⟩ | ⟨hsel, -⟩ | ⟨-, -, rfl⟩ := h
  · cases hs.symm.trans hsel
  · cases hs.symm.trans hsel
  · exact Memory.read?_write_same _ _ _

theorem stored_read_other {a : Nat} (ha : ¬(s.rxch.sel = .mem ∧ a = s.rxch.addr.toNat)) :
    Memory.read? mem a = Memory.read? s.mem a := by
  obtain ⟨-, -, rfl⟩ | ⟨-, -, rfl⟩ | ⟨hsel, -, rfl⟩ := h
  · rfl
  · rfl
  · exact Memory.read?_write_other _ _ fun he => ha ⟨hsel, he⟩

end Stored

/-! ### What an exchange sends -/

theorem exists_mosi {s : State} (h : s.txch.sel = .tmplRd ∨ s.txch.sel = .tmplWr → s.txch.addr.toNat < 5) :
    ∃ mosi, mosiByte? s = some mosi := by
  have hget : ∀ b : Hdr5, s.txch.addr.toNat < 5 → ∃ mosi, Hdr5.get? b s.txch.addr.toNat = some mosi := by
    intro b hlt
    rw [get?_eq_hdrList]
    exact ⟨_, List.getElem?_eq_getElem hlt⟩
  cases hsel : s.txch.sel with
  | tmplRd => simpa [mosiByte?, hsel] using hget _ (h (.inl hsel))
  | tmplWr => simpa [mosiByte?, hsel] using hget _ (h (.inr hsel))
  | dummy => exact ⟨s.par.dummyTx, by simp [mosiByte?, hsel]⟩
  | mem => exact ⟨memRead s.mem s.draws s.txch.addr, by simp [mosiByte?, hsel]⟩

/-- An exchange that is enabled, with its indexes inside the five-byte buffers, moves one byte each way. -/
theorem exists_exchange {s : State} (miso : Byte) (hen : exchangeEnabled s = true)
    (htx : s.txch.sel = .tmplRd ∨ s.txch.sel = .tmplWr → s.txch.addr.toNat < 5)
    (hrx : s.rxch.sel = .hdr → s.rxch.addr.toNat < 5) :
    ∃ mosi hdr mem, mosiByte? s = some mosi ∧ Stored miso s hdr mem ∧
      exchange miso s = .next (exchanged mosi miso hdr mem s) := by
  obtain ⟨mosi, hmosi⟩ := exists_mosi htx
  obtain ⟨hdr, mem, hstored⟩ := exists_stored miso hrx
  exact ⟨mosi, hdr, mem, hmosi, hstored, exchange_eq_next_iff.2 ⟨hen, mosi, hdr, mem, hmosi, hstored, rfl⟩⟩

end Sys2Proof.Proofs.Exchange
end

section
/-! Everything an instruction can do when it answers a next state, said once (R13): one case per arm of the pseudocode,
with its condition and the whole state it leaves. -/

namespace Sys2Proof.Proofs.Transition
open Sys2Proof Sys2Proof.Machine Sys2Proof.Proofs.Exchange

/-- The direction of the exchange a header row is one side of (R106 to R108). -/
def headerWay (i : Instr) : Option Way :=
  match i with
  | .hdrRdRsp _ _ _ _ => some .rx
  | .hdrRdCmd _ => some .rx
  | .hdrWrRsp _ _ _ _ => some .tx
  | .hdrWrCmd _ => some .tx
  | _ => none

/-- The state a whole header exchange leaves: the response in `HDR_RX`, both bursts done (R113, R176, log 7). -/
def headerDone (d : Way) (h : Hdr5) (draws : Nat) (s : State) : State :=
  { s with
    hdrRx := h, draws := draws
    txch := { headerTxChan d with addr := 5, cnt := 0 }, rxch := { headerRxChan with addr := 5, cnt := 0 }
    tctx := true, tcrx := true
    trace := s.trace ++ List.zipWith .wire (hdrList (hdrTemplate s.par d)) (hdrList h) }

theorem headerExchange_eq_headerDone {d : Way} {h : Hdr5} {s : State} (ha : headerArmed d s = true) :
    headerExchange d h s = .next (headerDone d h s.draws s) := headerExchange_of_armed ha

/-- A step that closes its sequence, with the state before `AfterClose` (R235, R237, R242). -/
inductive Closing : Instr → State → State → Prop
  | spurious {s : State} (hph : phase s = some .rxHdr) (hcount : leCount s.hdrRx.b3 s.hdrRx.b4 = 0)
      (hrdy : s.rdy = false) : Closing .rxdone s (close .rx { s with tcrx := false })
  | rxEnd {s : State} (hph : phase s = some .rxPayLast) :
      Closing .rxdone s { close .rx { s with tcrx := false } with
        rx := clearedRx, trace := s.trace ++ [.cs false, .lpmAllow .rx, .tmrStop, .notifyRx s.rx.burst false] }
  | txEnd {s : State} (hph : phase s = some .txPayLast) :
      Closing .txdone s { close .tx { s with tctx := false } with
        tx := clearedTx, trace := s.trace ++ [.cs false, .lpmAllow .tx, .tmrStop, .notifyTx] }

/-- The arms of the eleven operations and the header rows. -/
inductive Trans : Instr → State → State → Prop
  | reset (s : State) :
      Trans .reset s { toResetState s with
        trace := s.trace ++ (if s.cs then [.cs false] else []) ++ (if s.holdTx then [.lpmAllow .tx] else []) ++
          (if s.holdRx then [.lpmAllow .rx] else []) ++ (if s.tmrarm then [.tmrStop] else []) }
  | init {mode : Byte} {s : State} (hbus : s.bus = .available) :
      Trans (.init mode) s { toResetState s with inited := true, mode := mode }
  | sendOpen {p : Addr} {n : Len} {s : State} (hinit : s.inited = true) (hlen : n ≠ 0)
      (hfit : p.toNat + n.toNat ≤ Config.addrSpace) (hbus : s.bus = .available) : Trans (.send p n) s (startTx p n s)
  | sendQueue {p : Addr} {n : Len} {s : State} (hlen : n ≠ 0) (hfit : p.toNat + n.toNat ≤ Config.addrSpace)
      (hbus : s.bus = .busy) : Trans (.send p n) s { s with pend := ⟨true, p, n⟩ }
  | evtreqContinue {p : Addr} {n : Len} {s : State} (hlen : n ≠ 0) (hfit : p.toNat + n.toNat ≤ Config.addrSpace)
      (hbus : s.bus = .busy) (hdir : s.dir = .rx) (hwait : s.rxwait = true) :
      Trans (.evtreq p n) s (rxProgram s.rx.rem { s with rx := { s.rx with ptr := p, size := n } })
  | evtreqArm {p : Addr} {n : Len} {s : State} (hlen : n ≠ 0) (hfit : p.toNat + n.toNat ≤ Config.addrSpace)
      (hdir : ¬(s.bus = .busy ∧ s.dir = .rx)) :
      Trans (.evtreq p n) s { s with rx := ⟨p, n, 0, 0, false, true⟩, rdypend := s.rdy, rdyie := true }
  | rdyirqOpen {s : State} (hinit : s.inited = true) (hen : s.rdyie = true) (hbus : s.bus = .available) :
      Trans .rdyirq s (startRx { s with rdypend := false })
  | rdyirqIgnored {s : State} (hen : s.rdyie = true) (hbus : s.bus = .busy) :
      Trans .rdyirq s { s with rdypend := false }
  | rxAccept {s : State} (hph : phase s = some .rxHdr) (hcount : 0 < leCount s.hdrRx.b3 s.hdrRx.b4) :
      Trans .rxdone s (rxProgram (leCount s.hdrRx.b3 s.hdrRx.b4) { s with tcrx := false })
  | rxRetry {s : State} (hph : phase s = some .rxHdr) (hwake : ¬(leCount s.hdrRx.b3 s.hdrRx.b4 = 0 ∧ s.rdy = false)) :
      Trans .rxdone s (retry .rx { s with tcrx := false })
  | txAccept {s : State} (hph : phase s = some .txHdr) (hcount : 0 < leCount s.hdrRx.b1 s.hdrRx.b2) :
      Trans .rxdone s (txProgram (leCount s.hdrRx.b1 s.hdrRx.b2) { s with tcrx := false })
  | txRetry {s : State} (hph : phase s = some .txHdr) : Trans .rxdone s (retry .tx { s with tcrx := false })
  | rxMore {s : State} (hlatch : s.tcrx = true) (hph : phase s = some .rxPayMore) :
      Trans .rxdone s (payloadCompleteRxMore { s with tcrx := false })
  | rxdoneIgnored {s : State} (hlatch : s.tcrx = true)
      (hph : phase s = some .txPayMore ∨ phase s = some .txPayLast ∨ phase s = some .rxWaitBuf ∨ phase s = some .idle) :
      Trans .rxdone s { s with tcrx := false }
  | txMore {s : State} (hph : phase s = some .txPayMore) :
      Trans .txdone s (payloadCompleteTxMore { s with tctx := false })
  | txdoneIgnored {s : State} (hlatch : s.tctx = true)
      (hph : phase s = some .txHdr ∨ phase s = some .rxHdr ∨ phase s = some .rxPayMore ∨ phase s = some .rxPayLast ∨
        phase s = some .rxWaitBuf ∨ phase s = some .idle) : Trans .txdone s { s with tctx := false }
  | closing {i : Instr} {s c : State} (hc : Closing i s c) : Trans i s (afterClose c)
  | timeout {s : State} (hlatch : s.topend = true) :
      Trans .timeout s { s with topend := false, toflag := true, trace := s.trace ++ [.notifyTimeout] }
  | tmrexp {s : State} (harm : s.tmrarm = true) : Trans .tmrexp s { s with tmrarm := false, topend := true }
  | rdylvl (level : Bool) (s : State) :
      Trans (.rdylvl level) s { s with rdypend := s.rdypend || (!s.rdy && level), rdy := level }
  | xchg {mosi miso : Byte} {hdr : Hdr5} {mem : Memory} {s : State} (hen : exchangeEnabled s = true)
      (hstored : Stored miso s hdr mem) : Trans (.xchg miso) s (exchanged mosi miso hdr mem s)
  | header {i : Instr} {d : Way} {s : State} (h : Hdr5) (draws : Nat) (hi : headerWay i = some d)
      (ha : headerArmed d s = true) : Trans i s (headerDone d h draws s)

/-! ### The two services of a burst -/

theorem trans_of_execRxdone {s t : State} (h : execRxdone s = .next t) : Trans .rxdone s t := by
  obtain ⟨-, hlatch, ⟨hph, rfl⟩ | ⟨hph, rfl⟩ | ⟨hph, rfl⟩ | ⟨hph, rfl⟩ | ⟨hph, rfl⟩⟩ := execRxdone_next h
  · obtain ⟨-, hcount, he⟩ | ⟨-, hwake, he⟩ | ⟨hcount, hrdy, he⟩ := headerCompleteRx_cases { s with tcrx := false } <;>
      rw [he]
    · exact .rxAccept hph hcount
    · exact .rxRetry hph hwake
    · exact .closing (.spurious hph hcount hrdy)
  · obtain ⟨-, hcount, he⟩ | ⟨-, he⟩ := headerCompleteTx_cases { s with tcrx := false } <;> rw [he]
    · exact .txAccept hph hcount
    · exact .txRetry hph
  · rw [payloadCompleteRxEnd_eq]
    exact .closing (.rxEnd hph)
  · exact .rxMore hlatch hph
  · exact .rxdoneIgnored hlatch hph

theorem trans_of_execTxdone {s t : State} (h : execTxdone s = .next t) : Trans .txdone s t := by
  obtain ⟨-, hlatch, ⟨hph, rfl⟩ | ⟨hph, rfl⟩ | ⟨hph, rfl⟩⟩ := execTxdone_next h
  · exact .txMore hph
  · rw [payloadCompleteTxEnd_eq]
    exact .closing (.txEnd hph)
  · exact .txdoneIgnored hlatch hph

/-! ### The header rows -/

theorem trans_of_headerExchange {i : Instr} {d : Way} {h : Hdr5} {s t : State} (hi : headerWay i = some d)
    (hx : headerExchange d h s = .next t) : Trans i s t := by
  have ha := headerExchange_next hx
  rw [headerExchange_eq_headerDone ha] at hx
  obtain rfl := Host.Outcome.next.inj hx
  exact .header h s.draws hi ha

theorem trans_of_headerCommand {i : Instr} {d : Way} {tmpl : Hdr5} {s t : State} (hi : headerWay i = some d)
    (hx : headerCommand d tmpl s = .next t) : Trans i s t := by
  obtain ⟨-, ha, hx⟩ := headerCommand_next hx
  rw [headerExchange_eq_headerDone ((headerArmed_draws d s _).trans ha)] at hx
  obtain rfl := Host.Outcome.next.inj hx
  exact .header (drawResponse s) (s.draws + 5) hi ha

/-- Every next state of an instruction is one of the arms. -/
theorem trans_of_exec {i : Instr} {s t : State} (h : exec i s = .next t) : Trans i s t := by
  cases i with
  | init mode =>
    obtain ⟨hbus, rfl⟩ := execInit_next h
    exact .init hbus
  | send p n =>
    obtain ⟨⟨hinit, hlen, hfit⟩, ⟨hbus, rfl⟩ | ⟨hbus, rfl⟩⟩ := execSend_next h
    · exact .sendOpen hinit hlen hfit hbus
    · exact .sendQueue hlen hfit hbus
  | evtreq p n =>
    obtain ⟨⟨-, hlen, hfit⟩, ⟨hbus, hdir, hwait, rfl⟩ | ⟨hdir, rfl⟩⟩ := execEvtreq_next h
    · exact .evtreqContinue hlen hfit hbus hdir hwait
    · exact .evtreqArm hlen hfit hdir
  | rdyirq =>
    obtain ⟨hinit, -, hen, ⟨hbus, rfl⟩ | ⟨hbus, rfl⟩⟩ := execRdyirq_next h
    · exact .rdyirqOpen hinit hen hbus
    · exact .rdyirqIgnored hen hbus
  | txdone => exact trans_of_execTxdone h
  | rxdone => exact trans_of_execRxdone h
  | timeout =>
    obtain ⟨-, hlatch, rfl⟩ := execTimeout_next h
    exact .timeout hlatch
  | xchg miso =>
    obtain ⟨hen, _, _, _, -, hstored, rfl⟩ := exchange_eq_next_iff.1 h
    exact .xchg hen hstored
  | rdylvl level =>
    obtain rfl := Host.Outcome.next.inj h
    exact .rdylvl level s
  | tmrexp =>
    obtain ⟨harm, rfl⟩ := execTmrexp_next h
    exact .tmrexp harm
  | reset =>
    obtain rfl := Host.Outcome.next.inj ((execReset_eq s).symm.trans h)
    exact .reset s
  | hdrRdRsp | hdrWrRsp => exact trans_of_headerExchange rfl h
  | hdrRdCmd | hdrWrCmd => exact trans_of_headerCommand rfl h

end Sys2Proof.Proofs.Transition
end

section
/-! The invariant read at one phase: what the sequence's direction fixes, what the phase adds, and what holds in every
phase (R41, R42). -/

namespace Sys2Proof.Proofs.Invariant
open Sys2Proof Sys2Proof.Machine

/-- The direction of the sequence a phase belongs to (R42). -/
def phaseDir (p : Phase) : Dir :=
  match p with
  | .idle => .none
  | .txHdr => .tx
  | .txPayMore => .tx
  | .txPayLast => .tx
  | .rxHdr => .rx
  | .rxPayMore => .rx
  | .rxPayLast => .rx
  | .rxWaitBuf => .rx

/-- The lines, votes, enables and contexts that the direction of the sequence fixes. -/
structure FollowsDir (d : Dir) (s : State) : Prop where
  dir : s.dir = d
  bus : s.bus = if d = .none then .available else .busy
  cs : s.cs = decide (d ≠ .none)
  holdTx : s.holdTx = decide (d = .tx)
  holdRx : s.holdRx = decide (d = .rx)
  txEn : s.txch.en = decide (d ≠ .none)
  rxEn : s.rxch.en = decide (d ≠ .none)
  txValid : s.tx.valid = decide (d = .tx)
  inited : d ≠ .none → s.inited = true
  timer : d = .none → s.tmrarm = false ∧ s.topend = false
  quiet : d = .none → s.tctx = false ∧ s.tcrx = false
  pend : s.pend.valid = true → d ≠ .none
  rdyie : s.rdyie = true → s.rx.valid = true ∧ d ≠ .rx
  rxValid : d = .rx → s.rx.valid = true
  armed : s.rx.valid = true → d ≠ .rx → 0 < s.rx.size

/-- The event the next completed burst means, the contexts, and the buffers the channels serve, in each phase. -/
def PhaseClauses (p : Phase) (s : State) : Prop :=
  match p with
  | .idle => s.rxev = .endOfTransfer ∧ s.rxwait = false
  | .txHdr =>
    (s.rxev = .checkHeaderForTransmit ∧ s.rxwait = false) ∧ (s.txch.sel = .tmplWr ∧ s.rxch.sel = .hdr) ∧
      0 < s.tx.rem ∧ s.tx.ptr.toNat + s.tx.rem.toNat ≤ Config.addrSpace
  | .txPayMore =>
    (s.rxev = .continuePayload ∧ s.rxwait = false) ∧ (s.txch.sel = .mem ∧ s.rxch.sel = .sink) ∧
      0 < s.tx.burst ∧ 0 < s.tx.rem ∧ s.tx.ptr.toNat + s.tx.burst.toNat + s.tx.rem.toNat ≤ Config.addrSpace
  | .txPayLast =>
    (s.rxev = .endOfTransfer ∧ s.rxwait = false) ∧ (s.txch.sel = .mem ∧ s.rxch.sel = .sink) ∧
      0 < s.tx.burst ∧ s.tx.rem = 0 ∧ s.tx.ptr.toNat + s.tx.burst.toNat ≤ Config.addrSpace
  | .rxHdr =>
    (s.rxev = .checkHeaderForReceive ∧ s.rxwait = false) ∧ (s.txch.sel = .tmplRd ∧ s.rxch.sel = .hdr) ∧ 0 < s.rx.size
  | .rxPayMore =>
    (s.rxev = .continuePayload ∧ s.rxwait = false) ∧ (s.txch.sel = .dummy ∧ s.rxch.sel = .mem) ∧
      0 < s.rx.burst ∧ s.rx.size = s.rx.burst ∧ 0 < s.rx.rem ∧ s.rx.cont = true
  | .rxPayLast =>
    (s.rxev = .endOfTransfer ∧ s.rxwait = false) ∧ (s.txch.sel = .dummy ∧ s.rxch.sel = .mem) ∧
      0 < s.rx.burst ∧ s.rx.burst ≤ s.rx.size ∧ s.rx.rem = 0
  | .rxWaitBuf =>
    (s.rxev = .continuePayload ∧ s.rxwait = true) ∧ (s.txch.sel = .dummy ∧ s.rxch.sel = .mem) ∧
      (s.rx.cont = true ∧ s.rx.size = 0 ∧ 0 < s.rx.rem) ∧ s.tcrx = false ∧ s.rxch.cnt = 0

/-- What holds in every phase alike. -/
structure Everywhere (s : State) : Prop where
  timerOnce : ¬(s.tmrarm = true ∧ s.topend = true)
  paired : s.txch.cnt = s.rxch.cnt
  txDone : s.tctx = true → s.txch.cnt = 0
  rxDone : s.tcrx = true → s.rxch.cnt = 0
  rxFits : s.rx.valid = true → s.rx.ptr.toNat + s.rx.size.toNat ≤ Config.addrSpace
  pendFits : PendingFits s
  range : ChannelsInRange s
  mem : Memory.wf s.mem = true

/-- The invariant at the phase `p`. -/
structure PhaseInv (p : Phase) (s : State) : Prop where
  follows : FollowsDir (phaseDir p) s
  clauses : PhaseClauses p s
  everywhere : Everywhere s

/-- The four sequencer fields are the phase's. -/
theorem phase_of_phaseInv {p : Phase} {s : State} (h : PhaseInv p s) : phase s = some p := by
  have hbus := h.follows.bus
  have hdir := h.follows.dir
  have hcl := h.clauses
  cases p <;> simp_all [PhaseClauses, phaseDir, phase]

/-! ### The two forms of the invariant are one -/

theorem dir_of_phase {p : Phase} {s : State} (hdir : BusyIffSequence s) (hp : phase s = some p) :
    s.dir = phaseDir p := by
  cases p <;>
    simp_all [BusyIffSequence, phase_eq_idle, phase_eq_txHdr, phase_eq_txPayMore, phase_eq_txPayLast, phase_eq_rxHdr,
      phase_eq_rxPayMore, phase_eq_rxPayLast, phase_eq_rxWaitBuf, phaseDir]

theorem followsDir_of_stateInv {s : State} (h : StateInv s) : FollowsDir s.dir s := by
  obtain ⟨⟨hdir, hquiet, hpend, hcs, ⟨hvtx, hvrx⟩, ⟨hen, -⟩, -, hrdy, htxv, -⟩, -, ⟨htarm, htpend, -⟩, hinit, -,
    ⟨hrxv, -, harmed, -⟩, -, -, ⟨hbusyEn, -⟩, -, -⟩ := h
  have hbus : s.bus = if s.dir = .none then .available else .busy := by
    cases hb : s.bus <;> simp_all [BusyIffSequence]
  constructor <;> cases hd : s.dir <;> simp_all [PendingOnlyWhileBusy, ReadyEnableHasBuffer, ChipSelectIffBusy]

theorem phaseClauses_of_stateInv {p : Phase} {s : State} (h : StateInv s) (hp : phase s = some p) :
    PhaseClauses p s := by
  obtain ⟨⟨-, -, -, -, -, -, -, -, -, hwait⟩, hidle, -, -, ⟨htxh, htxm, htxl⟩, ⟨-, -, -, hrxh, hrxm, hrxl⟩, -, -,
    ⟨-, hsel⟩, ⟨-, -, hdone⟩, -⟩ := h
  cases p
  case rxPayMore =>
    obtain ⟨-, -, hev⟩ := (phase_eq_rxPayMore s).1 hp
    obtain ⟨-, -, -, hsel⟩ := hsel
    obtain ⟨hpos, hfull, hmore⟩ := hrxm hp
    exact ⟨hev, hsel (.inl hp), hpos, hfull.symm, hmore⟩
  all_goals
    simp_all [PhaseClauses, IdleIsCanonical, phase_eq_idle, phase_eq_txHdr, phase_eq_txPayMore, phase_eq_txPayLast,
      phase_eq_rxHdr, phase_eq_rxPayLast, phase_eq_rxWaitBuf]

theorem everywhere_of_stateInv {s : State} (h : StateInv s) : Everywhere s := by
  obtain ⟨⟨-, -, -, -, -, ⟨-, hcnt⟩, -, -, -⟩, -, ⟨-, -, honce⟩, -, -, ⟨-, hfit, -⟩, hpend, hrange, -,
    ⟨htx, hrx, -⟩, hmem⟩ := h
  exact ⟨honce, hcnt, htx, hrx, hfit, hpend, hrange, hmem⟩

theorem exists_phaseInv {s : State} (h : StateInv s) : ∃ p, PhaseInv p s := by
  obtain ⟨p, hp⟩ : ∃ p, phase s = some p := by
    obtain ⟨⟨-, -, -, -, -, -, hlisted, -, -⟩, -⟩ := h
    exact Option.ne_none_iff_exists'.1 hlisted
  obtain ⟨⟨hdir, -⟩, -⟩ := id h
  exact ⟨p, dir_of_phase hdir hp ▸ followsDir_of_stateInv h, phaseClauses_of_stateInv h hp, everywhere_of_stateInv h⟩

theorem stateInv_of_phaseInv {p : Phase} {s : State} (h : PhaseInv p s) : StateInv s := by
  have hp := phase_of_phaseInv h
  obtain ⟨⟨hdir, hbus, hcs, hvtx, hvrx, hten, hren, htxv, hinit, htimer, hquiet, hpend, hrdy, hrxv, harmed⟩, hcl,
    ⟨honce, hcnt, htx, hrx, hfit, hpfit, hrange, hmem⟩⟩ := h
  cases p <;>
    simp_all [phaseDir, PhaseClauses, StateInv, SpecInv, BusyIffSequence, ChipSelectIffBusy, VotesFollowSequence,
      ChannelsPaired, ReadyEnableHasBuffer, ContextsFollowSequence, TimerInsideSequence, TxContextFits, RxContextFits,
      PendingOnlyWhileBusy, AvailableIsQuiet, BusyIsInitialised, PendingFits, ChannelsInRange, ChannelsFollowPhase,
      LatchesMeanDone]

end Sys2Proof.Proofs.Invariant
end

section
/-! Each procedure of the pseudocode, started in its phase of the invariant, ends in a phase of the invariant (R41). -/

namespace Sys2Proof.Proofs.Invariant
open Sys2Proof Sys2Proof.Machine Sys2Proof.Proofs.Bursts Sys2Proof.Proofs.Exchange
  Sys2Proof.Proofs.Transition

theorem phase_eq_of_phaseInv {p q : Phase} {s : State} (h : PhaseInv p s) (hq : phase s = some q) : p = q :=
  Option.some.inj ((phase_of_phaseInv h).symm.trans hq)

/-! ### Channels as they are armed -/

theorem channelsInRange_header {d : Way} {s : State} (ht : s.txch = headerTxChan d) (hr : s.rxch = headerRxChan) :
    ChannelsInRange s := by
  cases d <;> simp [ChannelsInRange, ht, hr, headerTxChan, headerRxChan, Config.hdrLen]

theorem channelsInRange_payloadTx {p : Addr} {n : Len} {s : State} (ht : s.txch = ⟨.mem, p, n, true, true⟩)
    (hr : s.rxch = ⟨.sink, 0, n, false, true⟩) (hfit : p.toNat + n.toNat ≤ Config.addrSpace) : ChannelsInRange s := by
  simp [ChannelsInRange, ht, hr, hfit]

theorem channelsInRange_payloadRx {p : Addr} {n : Len} {s : State} (ht : s.txch = ⟨.dummy, 0, n, false, true⟩)
    (hr : s.rxch = ⟨.mem, p, n, true, true⟩) (hfit : p.toNat + n.toNat ≤ Config.addrSpace) : ChannelsInRange s := by
  simp [ChannelsInRange, ht, hr, hfit]

/-! ### Opening a sequence -/

theorem startTx_phaseInv {p : Addr} {n : Len} {s : State} (h : PhaseInv .idle s) (hinit : s.inited = true)
    (hlen : n ≠ 0) (hfit : p.toNat + n.toNat ≤ Config.addrSpace) : PhaseInv .txHdr (startTx p n s) := by
  rw [startTx_eq]
  exact {
    follows := { h.follows with
      dir := rfl, bus := rfl, cs := rfl, holdTx := rfl, txEn := rfl, rxEn := rfl, txValid := rfl
      inited := fun _ => hinit, timer := nofun, quiet := nofun, pend := fun _ => nofun, rdyie := nofun
      rxValid := nofun, armed := fun hv _ => h.follows.armed hv nofun }
    clauses := ⟨⟨rfl, rfl⟩, ⟨rfl, rfl⟩, len_pos_of_ne_zero hlen, hfit⟩
    everywhere := { h.everywhere with
      timerOnce := nofun, paired := rfl, txDone := nofun, rxDone := nofun
      range := channelsInRange_header (d := .tx) rfl rfl } }

theorem startRx_phaseInv {s : State} (h : PhaseInv .idle s) (hinit : s.inited = true) (hen : s.rdyie = true) :
    PhaseInv .rxHdr (startRx { s with rdypend := false }) := by
  obtain ⟨hvalid, hdir⟩ := h.follows.rdyie hen
  rw [startRx_eq]
  exact {
    follows := { h.follows with
      dir := rfl, bus := rfl, cs := rfl, holdRx := rfl, txEn := rfl, rxEn := rfl
      inited := fun _ => hinit, timer := nofun, quiet := nofun, pend := fun _ => nofun, rdyie := nofun
      rxValid := fun _ => hvalid, armed := fun _ hrx => absurd rfl hrx }
    clauses := ⟨⟨rfl, rfl⟩, ⟨rfl, rfl⟩, h.follows.armed hvalid hdir⟩
    everywhere := { h.everywhere with
      timerOnce := nofun, paired := rfl, txDone := nofun, rxDone := nofun
      range := channelsInRange_header (d := .rx) rfl rfl } }

/-! ### Inside a sequence -/

theorem clear_tcrx_phaseInv {p : Phase} {s : State} (h : PhaseInv p s) : PhaseInv p { s with tcrx := false } where
  follows := { h.follows with quiet := fun hd => ⟨(h.follows.quiet hd).1, rfl⟩ }
  clauses := by
    have hcl := h.clauses
    cases p <;> simp_all [PhaseClauses]
  everywhere := { h.everywhere with rxDone := nofun }

theorem clear_tctx_phaseInv {p : Phase} {s : State} (h : PhaseInv p s) : PhaseInv p { s with tctx := false } where
  follows := { h.follows with quiet := fun hd => ⟨rfl, (h.follows.quiet hd).2⟩ }
  clauses := by cases p <;> exact h.clauses
  everywhere := { h.everywhere with txDone := nofun }

theorem retry_tx_phaseInv {s : State} (h : PhaseInv .txHdr s) : PhaseInv .txHdr (retry .tx s) := by
  obtain ⟨hev, -, hctx⟩ := h.clauses
  rw [retry_eq]
  exact {
    follows := { h.follows with cs := rfl, txEn := rfl, rxEn := rfl, quiet := nofun }
    clauses := ⟨hev, ⟨rfl, rfl⟩, hctx⟩
    everywhere := { h.everywhere with
      paired := rfl, txDone := nofun, rxDone := nofun, range := channelsInRange_header (d := .tx) rfl rfl } }

theorem retry_rx_phaseInv {s : State} (h : PhaseInv .rxHdr s) : PhaseInv .rxHdr (retry .rx s) := by
  obtain ⟨hev, -, hctx⟩ := h.clauses
  rw [retry_eq]
  exact {
    follows := { h.follows with cs := rfl, txEn := rfl, rxEn := rfl, quiet := nofun }
    clauses := ⟨hev, ⟨rfl, rfl⟩, hctx⟩
    everywhere := { h.everywhere with
      paired := rfl, txDone := nofun, rxDone := nofun, range := channelsInRange_header (d := .rx) rfl rfl } }

theorem txProgram_phaseInv {count : Len} {s : State} (h : PhaseInv .txHdr s) (hcount : 0 < count) :
    PhaseInv (if (txBurst count s.tx.rem).more then .txPayMore else .txPayLast) (txProgram count s) := by
  obtain ⟨⟨-, hwait⟩, -, hrem, hfit⟩ := h.clauses
  have hpos := txBurst_size_pos hcount hrem
  have hsum := txBurst_size_add_rem count s.tx.rem
  have hburst : s.tx.ptr.toNat + (txBurst count s.tx.rem).size.toNat ≤ Config.addrSpace := by omega
  have hf : FollowsDir .tx (txProgram count s) := { h.follows with txEn := rfl, rxEn := rfl, quiet := nofun }
  have he : Everywhere (txProgram count s) := { h.everywhere with
    paired := rfl, txDone := nofun, rxDone := nofun, range := channelsInRange_payloadTx (p := s.tx.ptr) rfl rfl hburst }
  cases hmore : (txBurst count s.tx.rem).more
  · have hrest := (txBurst_more_eq_false_iff _ _).1 hmore
    exact ⟨hf, ⟨⟨congrArg burstEvent hmore, hwait⟩, ⟨rfl, rfl⟩, hpos, hrest, hburst⟩, he⟩
  · have hrest := (txBurst_more_iff_rem_pos _ _).1 hmore
    rw [← hsum, ← add_assoc] at hfit
    exact ⟨hf, ⟨⟨congrArg burstEvent hmore, hwait⟩, ⟨rfl, rfl⟩, hpos, hrest, hfit⟩, he⟩

theorem rxProgram_phaseInv {total : Len} {s : State} (hf : FollowsDir .rx s) (he : Everywhere s) (htotal : 0 < total)
    (hsize : 0 < s.rx.size) :
    PhaseInv (if (rxBurst total s.rx.size).more then .rxPayMore else .rxPayLast) (rxProgram total s) := by
  have hfit := he.rxFits (hf.rxValid rfl)
  have hpos := rxBurst_size_pos htotal hsize
  have hle := rxBurst_size_le total s.rx.size
  have hburst : s.rx.ptr.toNat + (rxBurst total s.rx.size).size.toNat ≤ Config.addrSpace := by
    rw [BitVec.le_def] at hle
    omega
  have hf : FollowsDir .rx (rxProgram total s) := { hf with txEn := rfl, rxEn := rfl, quiet := nofun }
  have he : Everywhere (rxProgram total s) := { he with
    paired := rfl, txDone := nofun, rxDone := nofun, range := channelsInRange_payloadRx (p := s.rx.ptr) rfl rfl hburst }
  cases hmore : (rxBurst total s.rx.size).more
  · have hrest := (rxBurst_more_eq_false_iff _ _).1 hmore
    exact ⟨hf, ⟨⟨congrArg burstEvent hmore, rfl⟩, ⟨rfl, rfl⟩, hpos, hle, hrest⟩, he⟩
  · have hrest := (rxBurst_more_iff_rem_pos _ _).1 hmore
    have hfull := (rxBurst_size_of_more hmore).symm
    exact ⟨hf, ⟨⟨congrArg burstEvent hmore, rfl⟩, ⟨rfl, rfl⟩, hpos, hfull, hrest, hmore⟩, he⟩

/-- EVTREQ while the next buffer is awaited: the new buffer, then the burst (R204). -/
theorem continue_phaseInv {p : Addr} {n : Len} {s : State} (h : PhaseInv .rxWaitBuf s) (hlen : n ≠ 0)
    (hfit : p.toNat + n.toNat ≤ Config.addrSpace) :
    PhaseInv (if (rxBurst s.rx.rem n).more then .rxPayMore else .rxPayLast)
      (rxProgram s.rx.rem { s with rx := { s.rx with ptr := p, size := n } }) := by
  obtain ⟨-, -, ⟨-, -, hrem⟩, -⟩ := h.clauses
  have hf : FollowsDir .rx { s with rx := { s.rx with ptr := p, size := n } } :=
    { h.follows with armed := fun _ hd => absurd rfl hd }
  have he : Everywhere { s with rx := { s.rx with ptr := p, size := n } } :=
    { h.everywhere with rxFits := fun _ => hfit }
  exact rxProgram_phaseInv hf he hrem (len_pos_of_ne_zero hlen)

theorem payloadCompleteRxMore_phaseInv {s : State} (h : PhaseInv .rxPayMore s) (hlatch : s.tcrx = true) :
    PhaseInv .rxWaitBuf (payloadCompleteRxMore { s with tcrx := false }) := by
  obtain ⟨⟨hev, -⟩, hsel, -, hsize, hrem, hcont⟩ := h.clauses
  have hzero : s.rx.size - s.rx.burst = 0 := sub_eq_zero_of_eq hsize
  exact {
    follows := { h.follows with quiet := nofun, armed := fun _ hd => absurd rfl hd }
    clauses := ⟨⟨hev, rfl⟩, hsel, ⟨hcont, hzero, hrem⟩, rfl, h.everywhere.rxDone hlatch⟩
    everywhere := { h.everywhere with
      rxDone := nofun
      rxFits := fun _ => by
        change (advanceAddr _ _).toNat + (s.rx.size - s.rx.burst).toNat ≤ Config.addrSpace
        rw [hzero]
        exact (advanceAddr _ _).isLt.le } }

theorem payloadCompleteTxMore_phaseInv {s : State} (h : PhaseInv .txPayMore s) :
    PhaseInv .txHdr (payloadCompleteTxMore s) := by
  obtain ⟨⟨-, hwait⟩, -, -, hrem, hfit⟩ := h.clauses
  have hptr : (advanceAddr s.tx.ptr s.tx.burst).toNat = s.tx.ptr.toNat + s.tx.burst.toNat := by
    rw [len_pos_iff] at hrem
    exact advanceAddr_toNat (by omega)
  rw [payloadCompleteTxMore_eq]
  exact {
    follows := { h.follows with cs := rfl, txEn := rfl, rxEn := rfl, quiet := nofun }
    clauses := ⟨⟨rfl, hwait⟩, ⟨rfl, rfl⟩, hrem, hptr ▸ hfit⟩
    everywhere := { h.everywhere with
      paired := rfl, txDone := nofun, rxDone := nofun, range := channelsInRange_header (d := .tx) rfl rfl } }

theorem headerDone_phaseInv {p : Phase} {d : Way} {r : Hdr5} {draws : Nat} {s : State} (h : PhaseInv p s)
    (ha : headerArmed d s = true) : PhaseInv p (headerDone d r draws s) := by
  obtain ⟨hph, -⟩ := (headerArmed_iff d s).1 ha
  have hrange : ChannelsInRange (headerDone d r draws s) := by
    cases d <;> simp [ChannelsInRange, headerDone, headerTxChan, headerRxChan]
  have he : Everywhere (headerDone d r draws s) :=
    { h.everywhere with paired := rfl, txDone := fun _ => rfl, rxDone := fun _ => rfl, range := hrange }
  cases d <;> obtain rfl := phase_eq_of_phaseInv h hph <;> obtain ⟨hev, -, hctx⟩ := h.clauses <;>
    exact ⟨{ h.follows with txEn := rfl, rxEn := rfl, quiet := nofun }, ⟨hev, ⟨rfl, rfl⟩, hctx⟩, he⟩

/-! ### The byte exchange -/

theorem nextAddr_of_lt {a : Addr} {minc : Bool} (hm : minc = true) (h : a.toNat + 1 < 2 ^ 32) :
    (nextAddr minc a).toNat = a.toNat + 1 := hm ▸ nextAddr_toNat h

theorem len_pred_toNat {n : Len} (h : 0 < n) : (n - 1).toNat = n.toNat - 1 := by
  have hle : (1 : Len) ≤ n := by
    rw [len_pos_iff] at h
    rw [BitVec.le_def]
    exact h
  exact BitVec.toNat_sub_of_le hle

/-- One byte moves a five-byte index and its count against each other. -/
theorem nextAddr_index {a : Addr} {n : Len} {minc : Bool} (hm : minc = true) (hn : 0 < n)
    (h : a.toNat + n.toNat = 5) : (nextAddr minc a).toNat + (n - 1).toNat = 5 := by
  rw [len_pred_toNat hn]
  rw [len_pos_iff] at hn
  rw [nextAddr_of_lt hm (by omega)]
  omega

/-- One byte keeps a host buffer inside the address space; past its last byte the address is free, and the count 0. -/
theorem nextAddr_fits {a : Addr} {n : Len} {minc : Bool} (hm : minc = true) (hn : 0 < n)
    (h : a.toNat + n.toNat ≤ Config.addrSpace) :
    (nextAddr minc a).toNat + (n - 1).toNat ≤ Config.addrSpace := by
  have hspace : Config.addrSpace = 2 ^ 32 := rfl
  have hlt := (nextAddr minc a).isLt
  rw [len_pred_toNat hn]
  rw [len_pos_iff] at hn
  by_cases htop : a.toNat + 1 < 2 ^ 32
  · rw [nextAddr_of_lt hm htop]
    omega
  · omega

theorem channelsInRange_next {s t : State} (h : ChannelsInRange s) (htx : 0 < s.txch.cnt) (hrx : 0 < s.rxch.cnt)
    (ht : t.txch = s.txch.next) (hr : t.rxch = s.rxch.next) : ChannelsInRange t := by
  obtain ⟨htmpl, hhdr, htmem, hrmem⟩ := h
  rw [ChannelsInRange, ht, hr]
  refine ⟨fun hs => ?_, fun hs => ?_, fun hs => ?_, fun hs => ?_⟩
  · exact ⟨(htmpl hs).1, nextAddr_index (htmpl hs).1 htx (htmpl hs).2⟩
  · exact ⟨(hhdr hs).1, nextAddr_index (hhdr hs).1 hrx (hhdr hs).2⟩
  · exact ⟨(htmem hs).1, nextAddr_fits (htmem hs).1 htx (htmem hs).2⟩
  · exact ⟨(hrmem hs).1, nextAddr_fits (hrmem hs).1 hrx (hrmem hs).2⟩

/-- A latch set while bytes were left means that the last one has moved now. -/
theorem cnt_eq_zero_of_latch {latch : Bool} {n n' : Len} (hdone : latch = true → n = 0) (hn : 0 < n)
    (h : (latch || n' == 0) = true) : n' = 0 := by
  rw [Bool.or_eq_true, beq_iff_eq] at h
  exact h.resolve_left fun hl => len_not_pos.2 (hdone hl) hn

theorem exchanged_phaseInv {p : Phase} {mosi miso : Byte} {hdr : Hdr5} {mem : Memory} {s : State} (h : PhaseInv p s)
    (hen : exchangeEnabled s = true) (hstored : Stored miso s hdr mem) :
    PhaseInv p (exchanged mosi miso hdr mem s) := by
  obtain ⟨-, hten, -, htx, hrx⟩ := (exchangeEnabled_iff s).1 hen
  have hopen : phaseDir p ≠ .none := by simpa [hten] using h.follows.txEn.symm
  exact {
    follows := { h.follows with quiet := fun hd => absurd hd hopen }
    clauses := by
      have hcl := h.clauses
      cases p
      case rxWaitBuf =>
        obtain ⟨-, -, -, -, hzero⟩ := hcl
        exact absurd hrx (len_not_pos.2 hzero)
      all_goals exact hcl
    everywhere := { h.everywhere with
      paired := congrArg (· - 1) h.everywhere.paired
      txDone := cnt_eq_zero_of_latch h.everywhere.txDone htx
      rxDone := cnt_eq_zero_of_latch h.everywhere.rxDone hrx
      range := channelsInRange_next h.everywhere.range htx hrx rfl rfl
      mem := stored_wf hstored h.everywhere.mem } }

/-! ### Back to `Available` -/

theorem reset_phaseInv {s : State} (b : Bool) (mode : Byte) (tr : List Effect) (hmem : Memory.wf s.mem = true) :
    PhaseInv .idle { toResetState s with inited := b, mode := mode, trace := tr } where
  follows := by constructor <;> simp [phaseDir, toResetState, State.reset]
  clauses := ⟨rfl, rfl⟩
  everywhere := {
    timerOnce := nofun, paired := rfl, txDone := nofun, rxDone := nofun, rxFits := nofun, pendFits := nofun
    range := by simp [ChannelsInRange, toResetState, State.reset]
    mem := hmem }

/-- The sequence's direction, as a vote id. -/
def wayDir (d : Way) : Dir :=
  match d with
  | .tx => .tx
  | .rx => .rx

/-- Neither vote is held after a close, whichever sequence it closed (R41 item 5). -/
theorem close_eq_of_phaseInv {p : Phase} {d : Way} {s : State} (h : PhaseInv p s) (hd : phaseDir p = wayDir d) :
    close d s = { s with
      bus := .available, dir := .none, rxev := .endOfTransfer, rxwait := false, cs := false, holdTx := false
      holdRx := false, tmrarm := false, topend := false, txch := { s.txch with en := false }
      rxch := { s.rxch with en := false }, tctx := false, tcrx := false
      trace := s.trace ++ [.cs false, .lpmAllow d, .tmrStop] } := by
  have htx := h.follows.holdTx
  have hrx := h.follows.holdRx
  cases d <;> simp_all [close_tx_eq, close_rx_eq, wayDir]

/-- A closed sequence with its context cleared and no request queued is the idle phase. -/
theorem closed_phaseInv {p : Phase} {d : Way} {tx : TxCtx} {rx : RxCtx} {q : Pending} {tr : List Effect} {s : State}
    (h : PhaseInv p s) (hd : phaseDir p = wayDir d) (htx : tx.valid = false) (hq : q.valid = false)
    (hrdy : s.rdyie = true → rx.valid = true) (hrx : rx.valid = true → rx = s.rx ∧ 0 < rx.size) :
    PhaseInv .idle { close d s with tx := tx, rx := rx, pend := q, trace := tr } := by
  rw [close_eq_of_phaseInv h hd]
  exact {
    follows := {
      dir := rfl, bus := rfl, cs := rfl, holdTx := rfl, holdRx := rfl, txEn := rfl, rxEn := rfl, txValid := htx
      inited := fun hn => absurd rfl hn, timer := fun _ => ⟨rfl, rfl⟩, quiet := fun _ => ⟨rfl, rfl⟩
      pend := fun hv => (nomatch hq.symm.trans hv), rdyie := fun hv => ⟨hrdy hv, nofun⟩, rxValid := nofun
      armed := fun hv _ => (hrx hv).2 }
    clauses := ⟨rfl, rfl⟩
    everywhere := { h.everywhere with
      timerOnce := nofun, txDone := nofun, rxDone := nofun
      rxFits := fun hv => by
        obtain ⟨rfl, -⟩ := hrx hv
        exact h.everywhere.rxFits hv
      pendFits := fun hv => nomatch hq.symm.trans hv } }

/-- The state before `AfterClose`, but for a queued request, is the idle phase (R245). -/
theorem closing_phaseInv {i : Instr} {p : Phase} {s c : State} (h : PhaseInv p s) (hc : Closing i s c) {q : Pending}
    (hq : q.valid = false) : PhaseInv .idle { c with pend := q } := by
  cases hc with
  | spurious hph =>
    obtain rfl := phase_eq_of_phaseInv h hph
    obtain ⟨-, -, hsize⟩ := h.clauses
    have hclear := clear_tcrx_phaseInv h
    have hidle := closed_phaseInv (d := .rx) (tx := s.tx) (rx := s.rx)
      (tr := s.trace ++ [.cs false, .lpmAllow .rx, .tmrStop]) hclear rfl h.follows.txValid hq
      (fun hv => (h.follows.rdyie hv).1) (fun _ => ⟨rfl, hsize⟩)
    rw [close_rx_eq] at hidle ⊢
    exact hidle
  | rxEnd hph =>
    obtain rfl := phase_eq_of_phaseInv h hph
    have hclear := clear_tcrx_phaseInv h
    have hidle := closed_phaseInv (d := .rx) (tx := s.tx) (rx := clearedRx)
      (tr := s.trace ++ [.cs false, .lpmAllow .rx, .tmrStop, .notifyRx s.rx.burst false]) hclear rfl
      h.follows.txValid hq (fun hv => absurd rfl (h.follows.rdyie hv).2) nofun
    rw [close_rx_eq] at hidle ⊢
    exact hidle
  | txEnd hph =>
    obtain rfl := phase_eq_of_phaseInv h hph
    have hclear := clear_tctx_phaseInv h
    have hidle := closed_phaseInv (d := .tx) (tx := clearedTx) (rx := s.rx)
      (tr := s.trace ++ [.cs false, .lpmAllow .tx, .tmrStop, .notifyTx]) hclear rfl rfl hq
      (fun hv => (h.follows.rdyie hv).1) (fun hv => ⟨rfl, h.follows.armed hv nofun⟩)
    rw [close_tx_eq] at hidle ⊢
    exact hidle

end Sys2Proof.Proofs.Invariant
end

section
/-! Every arm keeps the invariant, and goes from phase to phase as the transition table allows (R41, R248). -/

namespace Sys2Proof.Proofs.Invariant
open Sys2Proof Sys2Proof.Machine Sys2Proof.Proofs.Bursts Sys2Proof.Proofs.Exchange Sys2Proof.Proofs.Transition

/-! ### Which phase a state of the invariant is in -/

theorem phase_idle_of_available {p : Phase} {s : State} (h : PhaseInv p s) (hbus : s.bus = .available) : p = .idle :=
  phase_eq_of_phaseInv h ((phase_eq_idle s).2 hbus)

theorem open_of_busy {p : Phase} {s : State} (h : PhaseInv p s) (hbus : s.bus = .busy) : phaseDir p ≠ .none := by
  intro hd
  have hidle := h.follows.bus
  rw [if_pos hd, hbus] at hidle
  cases hidle

theorem phase_rxWaitBuf_of_rxwait {p : Phase} {s : State} (h : PhaseInv p s) (hwait : s.rxwait = true) :
    p = .rxWaitBuf := by
  have hcl := h.clauses
  cases p <;> simp_all [PhaseClauses]

/-! ### `AfterClose` -/

/-- What a closing step leaves for `AfterClose` to read (R246). -/
theorem closing_frame {i : Instr} {s c : State} (hc : Closing i s c) :
    c.pend = s.pend ∧ c.inited = s.inited ∧ c.rdy = s.rdy := by
  cases hc <;> simp [close_rx_eq, close_tx_eq]

/-- A closing step starts a queued request, and goes idle without one (R246). -/
theorem afterClose_phaseInv {i : Instr} {p : Phase} {s c : State} (h : PhaseInv p s) (hc : Closing i s c)
    (hopen : phaseDir p ≠ .none) : PhaseInv (if s.pend.valid then .txHdr else .idle) (afterClose c) := by
  obtain ⟨hpend, hinit, -⟩ := closing_frame hc
  rw [← hpend]
  obtain ⟨hq, he⟩ | ⟨hq, hvalid, he⟩ | ⟨hq, -, he⟩ := afterClose_cases c <;> rw [he, hq]
  · obtain ⟨hlen, hfit⟩ := h.everywhere.pendFits (hpend ▸ hq)
    rw [← hpend] at hlen hfit
    exact startTx_phaseInv (closing_phaseInv h hc rfl) (hinit.trans (h.follows.inited hopen))
      (fun hz => len_not_pos.2 hz hlen) hfit
  · have hidle := closing_phaseInv h hc hq
    exact {
      follows := { hidle.follows with rdyie := fun _ => ⟨hvalid, nofun⟩ }
      clauses := hidle.clauses
      everywhere := { hidle.everywhere with } }
  · exact closing_phaseInv h hc hq

theorem closing_moves {i : Instr} {p : Phase} {s c : State} (h : PhaseInv p s) (hc : Closing i s c) :
    ∃ q, PhaseInv q (afterClose c) ∧ tableAllows i p q = true := by
  have hafter := afterClose_phaseInv h hc
  cases hc with
  | spurious hph | rxEnd hph | txEnd hph =>
    obtain rfl := phase_eq_of_phaseInv h hph
    exact ⟨_, hafter nofun, by cases s.pend.valid <;> rfl⟩

/-! ### The arms -/

theorem table_keeps_phase_of_headerWay {i : Instr} {d : Way} (hi : headerWay i = some d) (p : Phase) :
    tableAllows i p p = true := by
  cases i <;> simp_all [headerWay, tableAllows]

/-- Every arm, from a state of the invariant at a phase, reaches a state of the invariant at a phase the table
allows. -/
theorem trans_moves {i : Instr} {p : Phase} {s t : State} (h : PhaseInv p s) (ht : Trans i s t) :
    ∃ q, PhaseInv q t ∧ tableAllows i p q = true := by
  cases ht with
  | reset => exact ⟨.idle, reset_phaseInv false 0 _ h.everywhere.mem, rfl⟩
  | init hbus =>
    obtain rfl := phase_idle_of_available h hbus
    exact ⟨.idle, reset_phaseInv true _ _ h.everywhere.mem, rfl⟩
  | sendOpen hinit hlen hfit hbus =>
    obtain rfl := phase_idle_of_available h hbus
    exact ⟨.txHdr, startTx_phaseInv h hinit hlen hfit, rfl⟩
  | sendQueue hlen hfit hbus =>
    have hopen := open_of_busy h hbus
    refine ⟨p, ⟨{ h.follows with pend := fun _ => hopen }, ?_, { h.everywhere with
      pendFits := fun _ => ⟨len_pos_of_ne_zero hlen, hfit⟩ }⟩, ?_⟩
    · cases p <;> exact h.clauses
    · cases p <;> simp_all [tableAllows, phaseDir]
  | evtreqContinue hlen hfit hbus hdir hwait =>
    obtain rfl := phase_rxWaitBuf_of_rxwait h hwait
    refine ⟨_, continue_phaseInv h hlen hfit, ?_⟩
    split <;> rfl
  | evtreqArm hlen hfit hdir =>
    have hd : phaseDir p ≠ .rx := fun hd => hdir ⟨by simpa [hd] using h.follows.bus, h.follows.dir.trans hd⟩
    refine ⟨p, ⟨{ h.follows with
      rdyie := fun _ => ⟨rfl, hd⟩, rxValid := fun _ => rfl, armed := fun _ _ => len_pos_of_ne_zero hlen }, ?_,
      { h.everywhere with rxFits := fun _ => hfit }⟩, ?_⟩
    · cases p with
      | idle | txHdr | txPayMore | txPayLast => exact h.clauses
      | rxHdr | rxPayMore | rxPayLast | rxWaitBuf => exact absurd rfl hd
    · cases p with
      | idle | txHdr | txPayMore | txPayLast => rfl
      | rxHdr | rxPayMore | rxPayLast | rxWaitBuf => exact absurd rfl hd
  | rdyirqOpen hinit hen hbus =>
    obtain rfl := phase_idle_of_available h hbus
    exact ⟨.rxHdr, startRx_phaseInv h hinit hen, rfl⟩
  | rdyirqIgnored hen hbus =>
    have hopen := open_of_busy h hbus
    obtain ⟨-, hd⟩ := h.follows.rdyie hen
    refine ⟨p, ⟨{ h.follows with }, ?_, { h.everywhere with }⟩, ?_⟩
    · cases p <;> exact h.clauses
    · cases p <;> simp_all [tableAllows, phaseDir]
  | rxAccept hph hcount =>
    obtain rfl := phase_eq_of_phaseInv h hph
    obtain ⟨-, -, hsize⟩ := h.clauses
    have hclear := clear_tcrx_phaseInv h
    refine ⟨_, rxProgram_phaseInv hclear.follows hclear.everywhere hcount hsize, ?_⟩
    split <;> rfl
  | rxRetry hph =>
    obtain rfl := phase_eq_of_phaseInv h hph
    exact ⟨.rxHdr, retry_rx_phaseInv (clear_tcrx_phaseInv h), rfl⟩
  | txAccept hph hcount =>
    obtain rfl := phase_eq_of_phaseInv h hph
    refine ⟨_, txProgram_phaseInv (clear_tcrx_phaseInv h) hcount, ?_⟩
    split <;> rfl
  | txRetry hph =>
    obtain rfl := phase_eq_of_phaseInv h hph
    exact ⟨.txHdr, retry_tx_phaseInv (clear_tcrx_phaseInv h), rfl⟩
  | rxMore hlatch hph =>
    obtain rfl := phase_eq_of_phaseInv h hph
    exact ⟨.rxWaitBuf, payloadCompleteRxMore_phaseInv h hlatch, rfl⟩
  | rxdoneIgnored hlatch hph =>
    refine ⟨p, clear_tcrx_phaseInv h, ?_⟩
    have hquiet := h.follows.quiet
    have hcl := h.clauses
    obtain hph | hph | hph | hph := hph <;> obtain rfl := phase_eq_of_phaseInv h hph <;>
      simp_all [tableAllows, phaseDir, PhaseClauses]
  | txMore hph =>
    obtain rfl := phase_eq_of_phaseInv h hph
    exact ⟨.txHdr, payloadCompleteTxMore_phaseInv (clear_tctx_phaseInv h), rfl⟩
  | txdoneIgnored hlatch hph =>
    refine ⟨p, clear_tctx_phaseInv h, ?_⟩
    have hquiet := h.follows.quiet
    obtain hph | hph | hph | hph | hph | hph := hph <;> obtain rfl := phase_eq_of_phaseInv h hph <;>
      simp_all [tableAllows, phaseDir]
  | closing hc => exact closing_moves h hc
  | timeout hlatch =>
    refine ⟨p, ⟨{ h.follows with timer := fun hd => ⟨(h.follows.timer hd).1, rfl⟩ }, ?_,
      { h.everywhere with timerOnce := nofun }⟩, by simp [tableAllows]⟩
    cases p <;> exact h.clauses
  | tmrexp harm =>
    refine ⟨p, ⟨{ h.follows with timer := fun hd => nomatch (h.follows.timer hd).1.symm.trans harm }, ?_,
      { h.everywhere with timerOnce := nofun }⟩, by simp [tableAllows]⟩
    cases p <;> exact h.clauses
  | rdylvl level =>
    refine ⟨p, ⟨{ h.follows with }, ?_, { h.everywhere with }⟩, by simp [tableAllows]⟩
    cases p <;> exact h.clauses
  | xchg hen hstored => exact ⟨p, exchanged_phaseInv h hen hstored, by simp [tableAllows]⟩
  | header r draws hi ha => exact ⟨p, headerDone_phaseInv h ha, table_keeps_phase_of_headerWay hi p⟩

/-- Settles O52: `trans_moves`, the phases read off the invariant. -/
theorem phasesFollowTheTransitionTable : Obligations.PhasesFollowTheTransitionTable := by
  intro i s t hs hx
  obtain ⟨p, hp⟩ := exists_phaseInv hs
  obtain ⟨q, hq, hallowed⟩ := trans_moves hp (trans_of_exec hx)
  exact ⟨p, q, phase_of_phaseInv hp, phase_of_phaseInv hq, hallowed⟩

theorem exec_keeps_stateInv {i : Instr} {s t : State} (hs : StateInv s) (hx : exec i s = .next t) : StateInv t := by
  obtain ⟨p, hp⟩ := exists_phaseInv hs
  obtain ⟨q, hq, -⟩ := trans_moves hp (trans_of_exec hx)
  exact stateInv_of_phaseInv hq

/-- The invariant does not read the agents' choices, and a host store keeps memory canonical. -/
theorem input_mem_keep_stateInv {s : State} (hs : StateInv s) (rest : List Input) {mem : Memory}
    (hmem : Memory.wf mem = true) : StateInv { s with input := rest, mem := mem } := by
  obtain ⟨hspec, hidle, htimer, hinit, htx, hrx, hpend, hrange, hsel, hdone, -⟩ := hs
  exact ⟨hspec, hidle, htimer, hinit, htx, hrx, hpend, hrange, hsel, hdone, hmem⟩

/-- Settles O50: a step is an instruction, and `trans_moves` has every arm of it, or a host store. -/
theorem stepKeepsTheInvariant : Obligations.StepKeepsTheInvariant := by
  intro s t hs hstep
  obtain ⟨-, -, -, -, -, -, -, -, -, -, hmem⟩ := id hs
  obtain ⟨x, i, rest, -, -, hx⟩ | ⟨a, v, rest, -, rfl⟩ := step_next hstep
  · exact exec_keeps_stateInv (input_mem_keep_stateInv hs rest hmem) hx
  · exact input_mem_keep_stateInv hs rest (Memory.wf_write a v hmem)

/-- Settles O2: the reset state is the idle phase. -/
theorem resetSatisfiesInvariant : Obligations.ResetSatisfiesInvariant :=
  stateInv_of_phaseInv (reset_phaseInv (s := State.reset) false 0 [] Memory.wf_reset)

end Sys2Proof.Proofs.Invariant
end

section
/-! The effects of every arm: chip-select alternates, and a vote is cast and withdrawn in turn (R130, R249, R297). -/

namespace Sys2Proof.Proofs.Effects
open Sys2Proof Sys2Proof.Machine Sys2Proof.Proofs.Exchange Sys2Proof.Proofs.Transition Sys2Proof.Proofs.Invariant

/-! ### Effects in sequence -/

theorem csAfter_append (level : Bool) (es fs : List Effect) :
    csAfter level (es ++ fs) = (csAfter level es).bind fun l => csAfter l fs := by
  induction es generalizing level with
  | nil => rfl
  | cons e es ih =>
    cases e with
    | cs v =>
      by_cases hv : v = level
      · simp [csAfter, hv]
      · simp [csAfter, hv, ih]
    | _ => exact ih level

theorem voteAfter_append (d : Way) (held : Bool) (es fs : List Effect) :
    voteAfter d held (es ++ fs) = (voteAfter d held es).bind fun v => voteAfter d v fs := by
  induction es generalizing held with
  | nil => rfl
  | cons e es ih =>
    cases e with
    | lpmRequest e | lpmAllow e =>
      by_cases he : e = d
      · cases held <;> simp [voteAfter, he, ih]
      · simp [voteAfter, he, ih]
    | _ => exact ih held

/-- From `s` to `t` the trace grew by effects that take the chip-select level and both votes, in turn, from the one
state to the other. -/
def InTurn (s t : State) : Prop :=
  ∃ es, t.trace = s.trace ++ es ∧ csAfter s.cs es = some t.cs ∧ voteAfter .tx s.holdTx es = some t.holdTx ∧
    voteAfter .rx s.holdRx es = some t.holdRx

theorem InTurn.trans {s t u : State} (hst : InTurn s t) (htu : InTurn t u) : InTurn s u := by
  obtain ⟨es, hes, hcs, htx, hrx⟩ := hst
  obtain ⟨fs, hfs, hcs', htx', hrx'⟩ := htu
  refine ⟨es ++ fs, by rw [hfs, hes, List.append_assoc], ?_, ?_, ?_⟩
  · rw [csAfter_append, hcs, Option.bind_some, hcs']
  · rw [voteAfter_append, htx, Option.bind_some, htx']
  · rw [voteAfter_append, hrx, Option.bind_some, hrx']

/-- Neither the lines nor the trace changed. -/
theorem inTurn_of_eq {s t : State} (htr : t.trace = s.trace) (hcs : t.cs = s.cs) (htx : t.holdTx = s.holdTx)
    (hrx : t.holdRx = s.holdRx) : InTurn s t :=
  ⟨[], by simpa using htr, by simp [csAfter, hcs], by simp [voteAfter, htx], by simp [voteAfter, hrx]⟩

/-! ### The procedures -/

theorem inTurn_startTx {s : State} (p : Addr) (n : Len) (hcs : s.cs = false) (htx : s.holdTx = false) :
    InTurn s (startTx p n s) := by
  rw [startTx_eq]
  exact ⟨_, rfl, by simp [csAfter, hcs], by simp [voteAfter, htx], by simp [voteAfter]⟩

theorem inTurn_startRx {s : State} (hcs : s.cs = false) (hrx : s.holdRx = false) : InTurn s (startRx s) := by
  rw [startRx_eq]
  exact ⟨_, rfl, by simp [csAfter, hcs], by simp [voteAfter], by simp [voteAfter, hrx]⟩

theorem inTurn_retry {s : State} (d : Way) (hcs : s.cs = true) : InTurn s (retry d s) := by
  rw [retry_eq]
  exact ⟨_, rfl, by simp [csAfter, hcs], by simp [voteAfter], by simp [voteAfter]⟩

theorem inTurn_payloadCompleteTxMore {s : State} (hcs : s.cs = true) : InTurn s (payloadCompleteTxMore s) := by
  rw [payloadCompleteTxMore_eq]
  exact ⟨_, rfl, by simp [csAfter, hcs], by simp [voteAfter], by simp [voteAfter]⟩

theorem inTurn_afterClose {c : State} (hcs : c.cs = false) (htx : c.holdTx = false) : InTurn c (afterClose c) := by
  obtain ⟨-, he⟩ | ⟨-, -, he⟩ | ⟨-, -, he⟩ := afterClose_cases c <;> rw [he]
  · exact inTurn_startTx (s := { c with pend := ⟨false, 0, 0⟩ }) _ _ hcs htx
  · exact inTurn_of_eq rfl rfl rfl rfl
  · exact inTurn_of_eq rfl rfl rfl rfl

/-- A closing step releases chip-select and the vote that its sequence held (R245). -/
theorem inTurn_closing {i : Instr} {p : Phase} {s c : State} (h : PhaseInv p s) (hc : Closing i s c) :
    InTurn s c ∧ c.cs = false ∧ c.holdTx = false := by
  cases hc with
  | spurious hph | rxEnd hph | txEnd hph =>
    obtain rfl := phase_eq_of_phaseInv h hph
    have hcs : s.cs = true := h.follows.cs
    have htx := h.follows.holdTx
    have hrx := h.follows.holdRx
    simp only [close_rx_eq, close_tx_eq]
    simp_all [InTurn, csAfter, voteAfter, phaseDir]

theorem inTurn_reset (s : State) :
    InTurn s { toResetState s with
      trace := s.trace ++ (if s.cs then [.cs false] else []) ++ (if s.holdTx then [.lpmAllow .tx] else []) ++
        (if s.holdRx then [.lpmAllow .rx] else []) ++ (if s.tmrarm then [.tmrStop] else []) } := by
  simp only [List.append_assoc]
  refine ⟨_, rfl, ?_⟩
  cases s.cs <;> cases s.holdTx <;> cases s.holdRx <;> cases s.tmrarm <;> exact ⟨rfl, rfl, rfl⟩

/-! ### The arms -/

theorem trans_inTurn {i : Instr} {p : Phase} {s t : State} (h : PhaseInv p s) (ht : Trans i s t) : InTurn s t := by
  have hcs := h.follows.cs
  have htx := h.follows.holdTx
  have hrx := h.follows.holdRx
  cases ht with
  | reset => exact inTurn_reset s
  | init hbus =>
    obtain rfl := phase_idle_of_available h hbus
    exact inTurn_of_eq rfl hcs.symm htx.symm hrx.symm
  | sendOpen _ _ _ hbus =>
    obtain rfl := phase_idle_of_available h hbus
    exact inTurn_startTx _ _ hcs htx
  | rdyirqOpen _ _ hbus =>
    obtain rfl := phase_idle_of_available h hbus
    exact inTurn_startRx (s := { s with rdypend := false }) hcs hrx
  | rxRetry hph | txRetry hph =>
    obtain rfl := phase_eq_of_phaseInv h hph
    exact inTurn_retry (s := { s with tcrx := false }) _ hcs
  | txMore hph =>
    obtain rfl := phase_eq_of_phaseInv h hph
    exact inTurn_payloadCompleteTxMore (s := { s with tctx := false }) hcs
  | closing hc =>
    obtain ⟨hclose, hcs, htx⟩ := inTurn_closing h hc
    exact hclose.trans (inTurn_afterClose hcs htx)
  | rxMore | timeout | xchg | header => exact ⟨_, rfl, rfl, rfl, rfl⟩
  | _ => exact inTurn_of_eq rfl rfl rfl rfl

/-- Settles O53: `trans_inTurn`, its chip-select part. -/
theorem chipSelectEffectsAlternate : Obligations.ChipSelectEffectsAlternate := by
  intro i s t hs hx
  obtain ⟨p, hp⟩ := exists_phaseInv hs
  obtain ⟨es, htrace, hcs, -⟩ := trans_inTurn hp (trans_of_exec hx)
  exact ⟨es, htrace, hcs⟩

/-- Settles O54: `trans_inTurn`, its votes. -/
theorem votesAreCastAndWithdrawnInTurn : Obligations.VotesAreCastAndWithdrawnInTurn := by
  intro i s t hs hx
  obtain ⟨p, hp⟩ := exists_phaseInv hs
  obtain ⟨es, htrace, -, hvotes⟩ := trans_inTurn hp (trans_of_exec hx)
  exact ⟨es, htrace, hvotes⟩

/-- Settles O60: a vote is held exactly in a direction that is not none, so exactly while `Busy` (R41 items 1 and 5). -/
theorem nosleepIsRaisedWhileASequenceIsOpen : Obligations.NosleepIsRaisedWhileASequenceIsOpen := by
  refine ⟨nosleep_iff, fun s hspec => ?_⟩
  obtain ⟨hdir, -, -, -, ⟨htx, hrx⟩, -⟩ := hspec
  have hbus : s.bus = .busy ↔ s.dir ≠ .none := hdir
  rw [nosleep_iff, htx, hrx, hbus]
  cases s.dir <;> decide

end Sys2Proof.Proofs.Effects
end

section
/-! The host's operations and the ready line in each of their arms: the whole state, or the refusal (R134, R200 to R204,
R230). -/

namespace Sys2Proof.Proofs.HostOperations
open Sys2Proof Sys2Proof.Machine Sys2Proof.Proofs.TransferManager

/-! ### Legal and illegal operands (R285) -/

theorem hostRefusal_of_legal {s : State} {p : Addr} {n : Len} (hinit : s.inited = true) (hlen : n ≠ 0)
    (hfit : p.toNat + n.toNat ≤ 2 ^ 32) : hostRefusal p n s = none := hostRefusal_eq_none.2 ⟨hinit, hlen, hfit⟩

theorem hostRefusal_of_not_inited {s : State} (p : Addr) (n : Len) (hinit : s.inited = false) :
    hostRefusal p n s = some .notInitialised := by
  rw [hostRefusal, if_pos hinit]

theorem hostRefusal_of_zero {s : State} (p : Addr) {n : Len} (hinit : s.inited = true) (hlen : n = 0) :
    hostRefusal p n s = some .zeroLength := by
  simp [hostRefusal, hinit, lenOk, hlen]

theorem hostRefusal_of_wrap {s : State} {p : Addr} {n : Len} (hinit : s.inited = true) (hlen : n ≠ 0)
    (hwrap : 2 ^ 32 < p.toNat + n.toNat) : hostRefusal p n s = some .bufferWraps := by
  have hfit : bufferOk p n = false := decide_eq_false (not_le.2 hwrap)
  have hlen : lenOk n = true := bne_iff_ne.2 hlen
  simp [hostRefusal, hinit, hlen, hfit]

theorem host_commands_refused {s : State} {p : Addr} {n : Len} {r : Refusal} (h : hostRefusal p n s = some r) :
    exec (.send p n) s = .refused r ∧ exec (.evtreq p n) s = .refused r := by
  simp only [exec, execSend, execEvtreq, h, and_self]

/-- Settles O18: the two operations share the refusals, and stop there. -/
theorem hostCommandsRefuseBadOperands : Obligations.HostCommandsRefuseBadOperands := fun _ _ _ =>
  ⟨fun hinit => host_commands_refused (hostRefusal_of_not_inited _ _ hinit),
    fun hinit hlen => host_commands_refused (hostRefusal_of_zero _ hinit hlen),
    fun hinit hlen hwrap => host_commands_refused (hostRefusal_of_wrap hinit hlen hwrap)⟩

/-! ### SEND (R202, R203) -/

section Legal
variable {s : State} {p : Addr} {n : Len} (h : hostRefusal p n s = none)
include h

theorem exec_send_available (hbus : s.bus = .available) : exec (.send p n) s = .next (startTx p n s) := by
  simp only [exec, execSend, h, hbus]

theorem exec_send_busy (hbus : s.bus = .busy) :
    exec (.send p n) s = .next { s with pend := { valid := true, ptr := p, len := n } } := by
  simp only [exec, execSend, h, hbus]

/-! ### EVTREQ (R204) -/

theorem exec_evtreq_fresh (hrx : ¬(s.bus = .busy ∧ s.dir = .rx)) :
    exec (.evtreq p n) s = .next (enableRxPath
      { s with rx := { ptr := p, size := n, rem := 0, burst := 0, cont := false, valid := true } }) := by
  simp only [exec, execEvtreq, h, if_neg hrx]

theorem exec_evtreq_waiting (hbus : s.bus = .busy) (hdir : s.dir = .rx) (hwait : s.rxwait = true) :
    exec (.evtreq p n) s = .next (rxProgram s.rx.rem { s with rx := { s.rx with ptr := p, size := n } }) := by
  simp [exec, execEvtreq, h, hbus, hdir, hwait]

theorem exec_evtreq_receiving (hbus : s.bus = .busy) (hdir : s.dir = .rx) (hwait : s.rxwait = false) :
    exec (.evtreq p n) s = .refused .evtReqWhileRxActive := by
  simp [exec, execEvtreq, h, hbus, hdir, hwait]

end Legal

/-- Settles O16: the Available arm is StartTx, and `startTx_eq` has its whole state. -/
theorem sendWhileAvailableOpensTransmit : Obligations.SendWhileAvailableOpensTransmit := by
  intro s p n hinit hlen hfit hbus
  rw [exec_send_available (hostRefusal_of_legal hinit hlen hfit) hbus, startTx_eq, headerTxChan_tx, headerRxChan_eq]

/-- Settles O17: the Busy arm writes `PEND` alone. -/
theorem sendWhileBusyQueues : Obligations.SendWhileBusyQueues :=
  fun _ _ _ hinit hlen hfit hbus => exec_send_busy (hostRefusal_of_legal hinit hlen hfit) hbus

/-- Settles O19: the fresh arm registers the buffer and calls EnableRxPath. -/
theorem evtreqArmsReception : Obligations.EvtreqArmsReception :=
  fun _ _ _ hinit hlen hfit hrx => exec_evtreq_fresh (hostRefusal_of_legal hinit hlen hfit) hrx

/-- Settles O20: the continuation arm is RxProgram of what the event has left, and `rxProgram_eq` has its whole
state. -/
theorem evtreqContinuesTheEvent : Obligations.EvtreqContinuesTheEvent := by
  intro s p n hinit hlen hfit hbus hdir hwait
  rw [exec_evtreq_waiting (hostRefusal_of_legal hinit hlen hfit) hbus hdir hwait, rxProgram_eq]
  rfl

/-- Settles O21: only `RXWAIT` separates the two arms of a receive sequence. -/
theorem evtreqRefusedWhileReceiving : Obligations.EvtreqRefusedWhileReceiving :=
  fun _ _ _ hinit hlen hfit hbus hdir hwait =>
    exec_evtreq_receiving (hostRefusal_of_legal hinit hlen hfit) hbus hdir hwait

/-! ### INIT and RESET (R200, R201) -/

/-- Settles O1: the reset state is the table. -/
theorem resetStateMatchesTable : Obligations.ResetStateMatchesTable := by
  unfold Obligations.ResetStateMatchesTable
  decide

/-- Settles O22: `BUS` decides between the refusal and the reset state. -/
theorem initResetsWhileAvailable : Obligations.InitResetsWhileAvailable := by
  intro s mode
  constructor <;> intro hbus <;> simp only [exec, execInit, hbus] <;> rfl

/-- Settles O23: the four conditional effects come before the reset state, which keeps the trace (`execReset_eq`). -/
theorem resetReleasesEverything : Obligations.ResetReleasesEverything := execReset_eq

/-! ### The ready line (R134, R230) -/

/-- Settles O24: the latch is set by a rising edge alone, so the falling one leaves it. -/
theorem rdylvlLatchesRisingEdges : Obligations.RdylvlLatchesRisingEdges := by
  intro s
  have hlatch : (s.rdypend || !s.rdy) = if s.rdy = false then true else s.rdypend := by
    cases s.rdy <;> cases s.rdypend <;> rfl
  simp [exec, execRdylvl, hlatch]

/-- A service that is initialised and pending runs its handler with its latch cleared (R286, R290). -/
theorem enterService_of_pending {q : IrqSource} {s : State} {h : State → Host.Outcome State Fault Refusal}
    (hinit : s.inited = true) (hp : irqPending q s = true) : enterService q s h = h (irqClear q s) := by
  simp [enterService, hinit, hp]

theorem enterService_of_not_pending {q : IrqSource} {s : State} {h : State → Host.Outcome State Fault Refusal}
    (hinit : s.inited = true) (hp : irqPending q s = false) : enterService q s h = .refused .notPending := by
  simp [enterService, hinit, hp]

theorem enterService_of_not_inited {q : IrqSource} {s : State} {h : State → Host.Outcome State Fault Refusal}
    (hinit : s.inited = false) : enterService q s h = .refused .notInitialised := by
  simp [enterService, hinit]

section Rdyirq
variable {s : State} (hinit : s.inited = true) (hpend : s.rdypend = true) (hen : s.rdyie = true)
include hinit hpend hen

theorem exec_rdyirq_available (hbus : s.bus = .available) :
    exec .rdyirq s = .next (startRx { s with rdypend := false }) := by
  change execRdyirq s = _
  rw [execRdyirq, enterService_of_pending hinit (by simp [irqPending, hpend, hen])]
  simp only [irqClear, hbus]

theorem exec_rdyirq_busy (hbus : s.bus = .busy) : exec .rdyirq s = .next { s with rdypend := false } := by
  change execRdyirq s = _
  rw [execRdyirq, enterService_of_pending hinit (by simp [irqPending, hpend, hen])]
  simp only [irqClear, hbus]

end Rdyirq

/-- Settles O25: the Available arm is StartRx, and `startRx_eq` has its whole state. -/
theorem rdyirqOpensReceive : Obligations.RdyirqOpensReceive := by
  intro s hinit hpend hen hbus
  rw [exec_rdyirq_available hinit hpend hen hbus, startRx_eq, headerTxChan_rx, headerRxChan_eq]

/-- Settles O26: the Busy arm has nothing but the latch that `enterService` cleared. -/
theorem rdyirqIgnoredWhileBusy : Obligations.RdyirqIgnoredWhileBusy :=
  fun _ hinit hpend hen hbus => exec_rdyirq_busy hinit hpend hen hbus

/-- Settles O27: all four services go through `enterService`. -/
theorem servicesNeedTheirLatch : Obligations.ServicesNeedTheirLatch := by
  intro s
  simp only [exec, execRdyirq, execTxdone, execRxdone, execTimeout]
  refine ⟨fun hinit => ?_, fun hinit => ⟨fun hp => ?_, fun hp => ?_, fun hp => ?_, fun hp => ?_⟩⟩
  · exact ⟨enterService_of_not_inited hinit, enterService_of_not_inited hinit, enterService_of_not_inited hinit,
      enterService_of_not_inited hinit⟩
  · exact enterService_of_not_pending (q := .readyLine) hinit (Bool.and_eq_false_iff.2 hp)
  · exact enterService_of_not_pending (q := .txDma) hinit hp
  · exact enterService_of_not_pending (q := .rxDma) hinit hp
  · exact enterService_of_not_pending (q := .timer) hinit hp

end Sys2Proof.Proofs.HostOperations
end

section
/-! What the two completion services and the timer's service do in each phase (R232 to R246). -/

namespace Sys2Proof.Proofs.Completions
open Sys2Proof Sys2Proof.Machine Sys2Proof.Proofs.HostOperations Sys2Proof.Proofs.TransferManager

/-! ### `AfterClose`, arm by arm (R246) -/

theorem afterClose_of_pending {c : State} (hp : c.pend.valid = true) :
    afterClose c = startTx c.pend.ptr c.pend.len { c with pend := ⟨false, 0, 0⟩ } := by
  simp [afterClose, hp, holdFor]

theorem afterClose_of_armed {c : State} (hp : c.pend.valid = false) (hr : c.rx.valid = true) :
    afterClose c = { c with rdypend := c.rdy, rdyie := true } := by
  simp [afterClose, hp, hr, enableRxPath, readyLevel]

theorem afterClose_of_nothing {c : State} (hp : c.pend.valid = false) (hr : c.rx.valid = false) : afterClose c = c := by
  simp [afterClose, hp, hr]

/-! ### The services by phase (R232, R240) -/

section Rxdone
variable {s : State} (hinit : s.inited = true) (hlatch : s.tcrx = true)
include hinit hlatch

theorem exec_rxdone_rxPayLast (hph : phase s = some .rxPayLast) :
    exec .rxdone s = .next (payloadCompleteRxEnd { s with tcrx := false }) := by
  simp only [exec, execRxdone, enterService_of_pending (q := .rxDma) hinit hlatch, irqClear, phase_clear_tcrx, hph]

theorem exec_rxdone_rxPayMore (hph : phase s = some .rxPayMore) :
    exec .rxdone s = .next (payloadCompleteRxMore { s with tcrx := false }) := by
  simp only [exec, execRxdone, enterService_of_pending (q := .rxDma) hinit hlatch, irqClear, phase_clear_tcrx, hph]

theorem exec_rxdone_ignored
    (hph : phase s = some .txPayMore ∨ phase s = some .txPayLast ∨ phase s = some .rxWaitBuf ∨ phase s = some .idle) :
    exec .rxdone s = .next { s with tcrx := false } := by
  simp only [exec, execRxdone, enterService_of_pending (q := .rxDma) hinit hlatch, irqClear, phase_clear_tcrx]
  obtain hph | hph | hph | hph := hph <;> rw [hph]

theorem exec_rxdone_unlisted (hph : phase s = none) : exec .rxdone s = .fault .illegalPhase := by
  simp only [exec, execRxdone, enterService_of_pending (q := .rxDma) hinit hlatch, irqClear, phase_clear_tcrx, hph]

end Rxdone

section Txdone
variable {s : State} (hinit : s.inited = true) (hlatch : s.tctx = true)
include hinit hlatch

theorem exec_txdone_txPayMore (hph : phase s = some .txPayMore) :
    exec .txdone s = .next (payloadCompleteTxMore { s with tctx := false }) := by
  simp only [exec, execTxdone, enterService_of_pending (q := .txDma) hinit hlatch, irqClear, phase_clear_tctx, hph]

theorem exec_txdone_txPayLast (hph : phase s = some .txPayLast) :
    exec .txdone s = .next (payloadCompleteTxEnd { s with tctx := false }) := by
  simp only [exec, execTxdone, enterService_of_pending (q := .txDma) hinit hlatch, irqClear, phase_clear_tctx, hph]

theorem exec_txdone_ignored
    (hph : phase s = some .txHdr ∨ phase s = some .rxHdr ∨ phase s = some .rxPayMore ∨ phase s = some .rxPayLast ∨
      phase s = some .rxWaitBuf ∨ phase s = some .idle) : exec .txdone s = .next { s with tctx := false } := by
  simp only [exec, execTxdone, enterService_of_pending (q := .txDma) hinit hlatch, irqClear, phase_clear_tctx]
  obtain hph | hph | hph | hph | hph | hph := hph <;> rw [hph]

theorem exec_txdone_unlisted (hph : phase s = none) : exec .txdone s = .fault .illegalPhase := by
  simp only [exec, execTxdone, enterService_of_pending (q := .txDma) hinit hlatch, irqClear, phase_clear_tctx, hph]

end Txdone

/-! ### The header exchange (R233 to R235) -/

theorem headerCompleteTx_of_accept {s : State} (hcode : s.hdrRx.b0 = s.par.readyCode)
    (hcount : leCount s.hdrRx.b1 s.hdrRx.b2 ≠ 0) :
    headerCompleteTx s = txProgram (leCount s.hdrRx.b1 s.hdrRx.b2) s := by
  obtain ⟨-, -, hacc⟩ | ⟨hnot, -⟩ := headerCompleteTx_cases s
  · exact hacc
  · exact absurd hnot (not_or.mpr ⟨not_not.mpr hcode, hcount⟩)

theorem headerCompleteRx_of_spurious {s : State} (hcount : leCount s.hdrRx.b3 s.hdrRx.b4 = 0) (hrdy : s.rdy = false) :
    headerCompleteRx s = afterClose (close .rx s) := by
  obtain ⟨-, hpos, -⟩ | ⟨-, hwake, -⟩ | ⟨-, -, hspur⟩ := headerCompleteRx_cases s
  · exact absurd hpos (len_not_pos.2 hcount)
  · exact absurd ⟨hcount, hrdy⟩ hwake
  · exact hspur

/-- Settles O29: the accept arm is `txProgram`, and `txProgram_eq` has its whole state. -/
theorem acceptedWriteHeaderProgramsTheBurst : Obligations.AcceptedWriteHeaderProgramsTheBurst := by
  intro s hinit hlatch hph hcode hcount
  have hacc : headerCompleteTx { s with tcrx := false } = _ := headerCompleteTx_of_accept hcode hcount
  rw [EventHandlers.exec_rxdone_of_txHdr hinit hlatch hph, hacc, txProgram_eq]
  rfl

/-- Settles O31: the spurious wake closes the sequence and the three arms of `AfterClose` follow. -/
theorem spuriousWakeClosesTheSequence : Obligations.SpuriousWakeClosesTheSequence := by
  intro s c hinit hlatch hph hcount hrdy hc
  have hclose : close .rx { s with tcrx := false } = c := (close_rx_eq _).trans hc.symm
  have hexec : exec .rxdone s = .next (afterClose c) := by
    rw [HostCommands.exec_rxdone_of_rxHdr hinit hlatch hph, ← hclose,
      headerCompleteRx_of_spurious (s := { s with tcrx := false }) hcount hrdy]
  subst hc
  rw [hexec]
  exact ⟨fun hp => congrArg _ (afterClose_of_pending hp), fun hp hr => congrArg _ (afterClose_of_armed hp hr),
    fun hp hr => congrArg _ (afterClose_of_nothing hp hr)⟩

/-! ### The ends of payload bursts (R237 to R243) -/

/-- Settles O32: the receive context is cleared before `AfterClose`, so its second arm is never taken. -/
theorem receiveEndNotifiesAndCloses : Obligations.ReceiveEndNotifiesAndCloses := by
  intro s c hinit hlatch hph hc
  have hexec : exec .rxdone s = .next (afterClose c) := by
    rw [exec_rxdone_rxPayLast hinit hlatch hph, payloadCompleteRxEnd_eq, close_rx_eq, hc]
    rfl
  subst hc
  rw [hexec]
  exact ⟨fun hp => congrArg _ (afterClose_of_pending hp), fun hp => congrArg _ (afterClose_of_nothing hp rfl)⟩

/-- Settles O33: the pointer is `advanceAddr`, exact below the top (`advanceAddr_toNat`). -/
theorem receiveContinuationWaitsForABuffer : Obligations.ReceiveContinuationWaitsForABuffer := by
  intro s hinit hlatch hph
  refine ⟨advanceAddr s.rx.ptr s.rx.burst, ?_, advanceAddr_toNat⟩
  rw [exec_rxdone_rxPayMore hinit hlatch hph, payloadCompleteRxMore_eq]

/-- Settles O34: the four phases have the same arm, and no phase the fault's. -/
theorem rxdoneOtherwiseClearsItsLatch : Obligations.RxdoneOtherwiseClearsItsLatch :=
  fun _ hinit hlatch => ⟨exec_rxdone_ignored hinit hlatch, exec_rxdone_unlisted hinit hlatch⟩

/-- Under the invariant the pointer of a transmit burst that the message outlasts never reaches the top (R156). -/
theorem tx_ptr_add_burst_lt {s : State} (hs : StateInv s) (hph : phase s = some .txPayMore) :
    s.tx.ptr.toNat + s.tx.burst.toNat < 2 ^ 32 := by
  obtain ⟨-, -, -, hrem, hfit⟩ := Invariant.phaseClauses_of_stateInv hs hph
  have hspace : Config.addrSpace = 2 ^ 32 := rfl
  rw [Bursts.len_pos_iff] at hrem
  omega

/-- Settles O35: the pointer is `advanceAddr`, and `payloadCompleteTxMore_eq` has the whole state. -/
theorem transmitContinuationOpensTheNextRound : Obligations.TransmitContinuationOpensTheNextRound := by
  intro s hinit hlatch hph
  refine ⟨advanceAddr s.tx.ptr s.tx.burst, ?_, advanceAddr_toNat, fun hs => tx_ptr_add_burst_lt hs hph⟩
  rw [exec_txdone_txPayMore hinit hlatch hph, payloadCompleteTxMore_eq, headerTxChan_tx, headerRxChan_eq]

/-- Settles O36: the transmit context is cleared and the three arms of `AfterClose` follow. -/
theorem transmitEndNotifiesAndCloses : Obligations.TransmitEndNotifiesAndCloses := by
  intro s c hinit hlatch hph hc
  have hexec : exec .txdone s = .next (afterClose c) := by
    rw [exec_txdone_txPayLast hinit hlatch hph, payloadCompleteTxEnd_eq, close_tx_eq, hc]
    rfl
  subst hc
  rw [hexec]
  exact ⟨fun hp => congrArg _ (afterClose_of_pending hp), fun hp hr => congrArg _ (afterClose_of_armed hp hr),
    fun hp hr => congrArg _ (afterClose_of_nothing hp hr)⟩

/-- Settles O37: the six phases have the same arm, and no phase the fault's. -/
theorem txdoneOtherwiseClearsItsLatch : Obligations.TxdoneOtherwiseClearsItsLatch :=
  fun _ hinit hlatch => ⟨exec_txdone_ignored hinit hlatch, exec_txdone_unlisted hinit hlatch⟩

/-! ### The timer (R244) -/

/-- Settles O39: the handler writes `TOFLAG` and emits, and `enterService` decides whether it runs. -/
theorem timeoutReportsAndChangesNothingElse : Obligations.TimeoutReportsAndChangesNothingElse := by
  intro s hinit
  simp only [exec, execTimeout]
  exact ⟨fun hlatch => enterService_of_pending (q := .timer) hinit hlatch,
    fun hlatch => enterService_of_not_pending (q := .timer) hinit hlatch⟩

end Sys2Proof.Proofs.Completions
end

section
/-! XCHG and the header rows in each of their arms (R106 to R108, R113, R175). -/

namespace Sys2Proof.Proofs.Transfers
open Sys2Proof Sys2Proof.Machine Sys2Proof.Proofs.Exchange Sys2Proof.Proofs.Bursts Sys2Proof.Proofs.TransferManager

/-! ### One byte each way -/

theorem exchangeEnabled_of_cnt_ne_zero {s : State} (hcs : s.cs = true) (htx : s.txch.en = true) (hrx : s.rxch.en = true)
    (htn : s.txch.cnt ≠ 0) (hrn : s.rxch.cnt ≠ 0) : exchangeEnabled s = true :=
  (exchangeEnabled_iff s).2 ⟨hcs, htx, hrx, len_pos_of_ne_zero htn, len_pos_of_ne_zero hrn⟩

/-- The count that reaches 0 is 1 (R178). -/
theorem pred_beq_zero (n : Len) : (n - 1 == 0) = (n == 1) := by
  rw [Bool.eq_iff_iff, beq_iff_eq, beq_iff_eq, sub_eq_zero]

theorem nextAddr_of_still {minc : Bool} (h : minc = false) (a : Addr) : nextAddr minc a = a := h ▸ nextAddr_still a

theorem readsUnwritten_iff (s : State) :
    readsUnwritten s = true ↔ s.txch.sel = .mem ∧ Memory.read? s.mem s.txch.addr.toNat = none := by
  simp [readsUnwritten]

section Mosi
variable {s : State} {mosi : Byte} (h : mosiByte? s = some mosi)
include h

theorem mosi_of_tmplRd (hs : s.txch.sel = .tmplRd) : (hdrList s.par.tmplRd)[s.txch.addr.toNat]? = some mosi := by
  simpa [mosiByte?, hs, get?_eq_hdrList, hdrTemplate] using h

theorem mosi_of_tmplWr (hs : s.txch.sel = .tmplWr) : (hdrList s.par.tmplWr)[s.txch.addr.toNat]? = some mosi := by
  simpa [mosiByte?, hs, get?_eq_hdrList, hdrTemplate] using h

theorem mosi_of_dummy (hs : s.txch.sel = .dummy) : mosi = s.par.dummyTx := by
  simpa [mosiByte?, hs] using h.symm

theorem mosi_of_written (hs : s.txch.sel = .mem) {v : Byte} (hv : Memory.read? s.mem s.txch.addr.toNat = some v) :
    mosi = v := by
  simpa [mosiByte?, hs, memRead, hv] using h.symm

theorem mosi_of_unwritten (hs : s.txch.sel = .mem) (hv : Memory.read? s.mem s.txch.addr.toNat = none) :
    mosi = Config.unwrittenByte s.draws := by
  simpa [mosiByte?, hs, memRead, hv] using h.symm

end Mosi

/-- Settles O40: `exists_exchange` has the whole state, and each operand is read off its own rule. -/
theorem xchgMovesOneByteEachWay : Obligations.XchgMovesOneByteEachWay := by
  intro s miso hcs hten hren htn hrn htaddr hraddr
  have hen := exchangeEnabled_of_cnt_ne_zero hcs hten hren htn hrn
  obtain ⟨mosi, hdr, mem, hmosi, hstored, hx⟩ := exists_exchange miso hen htaddr hraddr
  refine ⟨mosi, hdr, mem, if readsUnwritten s then s.draws + 1 else s.draws, nextAddr s.txch.minc s.txch.addr,
    nextAddr s.rxch.minc s.rxch.addr, ?_, fun h => nextAddr_of_still h _, fun h => nextAddr_of_still h _,
    Invariant.nextAddr_of_lt, Invariant.nextAddr_of_lt, mosi_of_tmplRd hmosi, mosi_of_tmplWr hmosi, mosi_of_dummy hmosi,
    fun hs _ => mosi_of_written hmosi hs, fun hs hv => ⟨mosi_of_unwritten hmosi hs hv, ?_⟩, fun hw => ?_,
    stored_hdr hstored, stored_hdr_of_ne hstored, stored_read_same hstored, fun _ => stored_read_other hstored⟩
  · rw [← pred_beq_zero, ← pred_beq_zero]
    exact hx
  · rw [if_pos ((readsUnwritten_iff s).2 ⟨hs, hv⟩)]
  · rw [if_neg (mt (readsUnwritten_iff s).1 hw)]

/-! ### Where there is no exchange -/

theorem exchange_of_not_enabled {s : State} (miso : Byte) (h : exchangeEnabled s ≠ true) :
    exchange miso s = .refused .noExchange := by
  rw [exchange, if_neg h]

theorem mosiByte?_eq_none {s : State} (hs : s.txch.sel = .tmplRd ∨ s.txch.sel = .tmplWr) (h : 5 ≤ s.txch.addr.toNat) :
    mosiByte? s = none := by
  have hget : ∀ b : Hdr5, Hdr5.get? b s.txch.addr.toNat = none := fun b => by
    rw [get?_eq_hdrList]
    exact List.getElem?_eq_none h
  obtain hs | hs := hs <;> simp [mosiByte?, hs, hget]

theorem storeMiso?_eq_none {s : State} (miso : Byte) (hs : s.rxch.sel = .hdr) (h : 5 ≤ s.rxch.addr.toNat) :
    storeMiso? miso s = none := by
  simp [storeMiso?, hs, set?_eq_none_of_le _ _ h]

/-- Settles O41: the enabling condition is the conjunction of the five, and an index of 5 or more has neither a byte to
send nor a place to store one. -/
theorem xchgStopsWhereNotEnabled : Obligations.XchgStopsWhereNotEnabled := by
  intro s miso
  constructor
  · intro hoff
    refine exchange_of_not_enabled miso fun hen => ?_
    obtain ⟨hcs, hten, hren, htn, hrn⟩ := (exchangeEnabled_iff s).1 hen
    have htn : s.txch.cnt ≠ 0 := fun hz => len_not_pos.2 hz htn
    have hrn : s.rxch.cnt ≠ 0 := fun hz => len_not_pos.2 hz hrn
    simp_all
  · intro hcs hten hren htn hrn hindex
    have hen := exchangeEnabled_of_cnt_ne_zero hcs hten hren htn hrn
    change exchange miso s = _
    rw [exchange, if_pos hen]
    obtain ⟨hs, h⟩ | ⟨hs, h⟩ := hindex
    · rw [mosiByte?_eq_none hs h]
    · rw [storeMiso?_eq_none miso hs h]
      cases mosiByte? s <;> rfl

/-! ### The header rows (R113, log 7, log 8) -/

theorem headerArmed_rx_iff (s : State) :
    headerArmed .rx s = true ↔ phase s = some .rxHdr ∧ s.cs = true ∧ s.txch = ⟨.tmplRd, 0, 5, true, true⟩ ∧
      s.rxch = ⟨.hdr, 0, 5, true, true⟩ := by
  rw [headerArmed_iff, headerTxChan_rx, headerRxChan_eq]

theorem headerArmed_tx_iff (s : State) :
    headerArmed .tx s = true ↔ phase s = some .txHdr ∧ s.cs = true ∧ s.txch = ⟨.tmplWr, 0, 5, true, true⟩ ∧
      s.rxch = ⟨.hdr, 0, 5, true, true⟩ := by
  rw [headerArmed_iff, headerTxChan_tx, headerRxChan_eq]

theorem headerExchange_of_not_armed {d : Way} {s : State} (h : Hdr5) (ha : headerArmed d s ≠ true) :
    headerExchange d h s = .refused .noHeaderExchange := by
  rw [headerExchange, if_neg ha]

theorem headerCommand_of_template {d : Way} {s : State} :
    headerCommand d (hdrTemplate s.par d) s = headerExchange d (drawResponse s) { s with draws := s.draws + 5 } := by
  rw [headerCommand, if_pos rfl]

theorem headerCommand_of_not_armed {d : Way} {s : State} (ha : headerArmed d s ≠ true) :
    headerCommand d (hdrTemplate s.par d) s = .refused .noHeaderExchange :=
  headerCommand_of_template.trans (headerExchange_of_not_armed (s := { s with draws := s.draws + 5 }) _ ha)

theorem headerCommand_of_ne {d : Way} {tmpl : Hdr5} {s : State} (h : tmpl ≠ hdrTemplate s.par d) :
    headerCommand d tmpl s = .refused .notTemplate := by
  rw [headerCommand, if_neg h]

/-- Settles O44: a fresh read-header exchange runs to its end (`headerExchange_of_armed`). -/
theorem readResponseFillsTheHeaderBuffer : Obligations.ReadResponseFillsTheHeaderBuffer :=
  fun s _ _ _ _ hph hcs ht hr => headerExchange_of_armed ((headerArmed_rx_iff s).2 ⟨hph, hcs, ht, hr⟩)

/-- Settles O45: the same for a write header. -/
theorem writeResponseFillsTheHeaderBuffer : Obligations.WriteResponseFillsTheHeaderBuffer :=
  fun s _ _ _ _ hph hcs ht hr => headerExchange_of_armed ((headerArmed_tx_iff s).2 ⟨hph, hcs, ht, hr⟩)

/-- Settles O46: a command is the exchange of a drawn response, which advances the draw counter by five. -/
theorem headerCommandsSendTheTemplate : Obligations.HeaderCommandsSendTheTemplate := by
  intro s hcs hr
  constructor
  · intro hph ht
    have ha := (headerArmed_draws .rx s (s.draws + 5)).trans ((headerArmed_rx_iff s).2 ⟨hph, hcs, ht, hr⟩)
    exact ⟨drawResponse s, s.draws + 5, headerCommand_of_template.trans (headerExchange_of_armed ha)⟩
  · intro hph ht
    have ha := (headerArmed_draws .tx s (s.draws + 5)).trans ((headerArmed_tx_iff s).2 ⟨hph, hcs, ht, hr⟩)
    exact ⟨drawResponse s, s.draws + 5, headerCommand_of_template.trans (headerExchange_of_armed ha)⟩

/-- Settles O47: the template is compared first, and the fresh exchange asked for after it. -/
theorem headerRowsNeedAFreshExchange : Obligations.HeaderRowsNeedAFreshExchange := by
  intro s a b c n h
  refine ⟨fun hrd => ?_, fun hwr => ?_, headerCommand_of_ne (d := .rx), headerCommand_of_ne (d := .tx)⟩
  · rw [← headerArmed_rx_iff] at hrd
    exact ⟨headerExchange_of_not_armed _ hrd, headerCommand_of_not_armed (d := .rx) hrd⟩
  · rw [← headerArmed_tx_iff] at hwr
    exact ⟨headerExchange_of_not_armed _ hwr, headerCommand_of_not_armed (d := .tx) hwr⟩

/-! ### No fault under the invariant -/

theorem index_lt_five {a : Addr} {n : Len} (hn : 0 < n) (h : a.toNat + n.toNat = 5) : a.toNat < 5 := by
  rw [len_pos_iff] at hn
  omega

theorem exchange_ne_fault {s : State} (hrange : ChannelsInRange s) (miso : Byte) (r : Fault) :
    exchange miso s ≠ .fault r := by
  by_cases hen : exchangeEnabled s = true
  · obtain ⟨-, -, -, htn, hrn⟩ := (exchangeEnabled_iff s).1 hen
    obtain ⟨htmpl, hhdr, -⟩ := hrange
    obtain ⟨_, _, _, -, -, hx⟩ := exists_exchange miso hen (fun hs => index_lt_five htn (htmpl hs).2)
      (fun hs => index_lt_five hrn (hhdr hs).2)
    rw [hx]
    nofun
  · rw [exchange_of_not_enabled miso hen]
    nofun

theorem headerExchange_ne_fault (d : Way) (h : Hdr5) (s : State) (r : Fault) : headerExchange d h s ≠ .fault r := by
  by_cases ha : headerArmed d s = true
  · rw [headerExchange_of_armed ha]
    nofun
  · rw [headerExchange_of_not_armed h ha]
    nofun

theorem headerCommand_ne_fault (d : Way) (tmpl : Hdr5) (s : State) (r : Fault) : headerCommand d tmpl s ≠ .fault r := by
  unfold headerCommand
  split
  · exact headerExchange_ne_fault _ _ _ _
  · nofun

/-- A service faults only where its handler does. -/
theorem enterService_ne_fault {q : IrqSource} {s : State} {r : Fault} {h : State → Host.Outcome State Fault Refusal}
    (hh : h (irqClear q s) ≠ .fault r) : enterService q s h ≠ .fault r :=
  fun hx => hh (enterService_fault.1 hx).2.2

/-- Settles O51: RXDONE and TXDONE fault only without a phase, an exchange only past the fifth byte, and no other
instruction at all. -/
theorem noInstructionFaultsUnderTheInvariant : Obligations.NoInstructionFaultsUnderTheInvariant := by
  intro i s r hs
  obtain ⟨⟨-, -, -, -, -, -, hlisted, -⟩, -, -, -, -, -, -, hrange, -⟩ := hs
  obtain ⟨p, hp⟩ := Option.ne_none_iff_exists'.1 hlisted
  cases i with
  | init mode =>
    simp only [exec, execInit]
    split <;> nofun
  | send b n =>
    simp only [exec, execSend]
    cases hostRefusal b n s <;> cases s.bus <;> nofun
  | evtreq b n =>
    simp only [exec, execEvtreq]
    cases hostRefusal b n s with
    | some r => nofun
    | none =>
      dsimp only
      split
      · split <;> nofun
      · nofun
  | rdyirq =>
    simp only [exec, execRdyirq]
    refine enterService_ne_fault ?_
    simp only [irqClear]
    cases s.bus <;> nofun
  | rxdone =>
    simp only [exec, execRxdone]
    refine enterService_ne_fault ?_
    simp only [irqClear, phase_clear_tcrx, hp]
    cases p <;> nofun
  | txdone =>
    simp only [exec, execTxdone]
    refine enterService_ne_fault ?_
    simp only [irqClear, phase_clear_tctx, hp]
    cases p <;> nofun
  | timeout =>
    simp only [exec, execTimeout]
    exact enterService_ne_fault nofun
  | xchg miso => exact exchange_ne_fault hrange miso r
  | rdylvl level => nofun
  | tmrexp =>
    simp only [exec, execTmrexp]
    split <;> nofun
  | reset => nofun
  | hdrRdRsp | hdrWrRsp => exact headerExchange_ne_fault _ _ _ _
  | hdrRdCmd | hdrWrCmd => exact headerCommand_ne_fault _ _ _ _

end Sys2Proof.Proofs.Transfers
end

section
/-! Whole payload bursts, by induction on the bytes exchanged (R172, R173, R176). -/

namespace Sys2Proof.Proofs.PayloadBursts
open Sys2Proof Sys2Proof.Machine Sys2Proof.Proofs.Exchange Sys2Proof.Proofs.Bursts

/-! ### Bytes stored from an address on -/

/-- Memory with `bytes` written at `a`, `a + 1` and so on. -/
def storeFrom (m : Memory) (a : Nat) (bytes : List Byte) : Memory :=
  match bytes with
  | [] => m
  | b :: rest => storeFrom (Memory.write m a b) (a + 1) rest

theorem read?_storeFrom_outside (m : Memory) (a : Nat) (bytes : List Byte) {x : Nat}
    (hx : x < a ∨ a + bytes.length ≤ x) : Memory.read? (storeFrom m a bytes) x = Memory.read? m x := by
  induction bytes generalizing m a with
  | nil => rfl
  | cons b rest ih =>
    rw [List.length_cons] at hx
    rw [storeFrom, ih _ _ (by omega), Memory.read?_write_other _ _ (by omega)]

theorem read?_storeFrom_inside (m : Memory) (a : Nat) (bytes : List Byte) (k : Nat) (hk : k < bytes.length) :
    Memory.read? (storeFrom m a bytes) (a + k) = some bytes[k] := by
  induction bytes generalizing m a k with
  | nil => nomatch hk
  | cons b rest ih =>
    cases k with
    | zero =>
      rw [storeFrom, Nat.add_zero, read?_storeFrom_outside _ _ _ (by omega)]
      exact Memory.read?_write_same _ _ _
    | succ k =>
      rw [List.length_cons] at hk
      rw [storeFrom, show a + (k + 1) = a + 1 + k by omega]
      exact ih _ _ _ (by omega)

/-! ### Counting a burst down -/

/-- With a byte moved, the rest of the list is as long as the rest of the count. -/
theorem rest_length {n : Len} {b : Byte} {rest : List Byte} (h : (b :: rest).length = n.toNat) :
    0 < n ∧ rest.length = (n - 1).toNat := by
  rw [List.length_cons] at h
  have hn : 0 < n := len_pos_iff.2 (by omega)
  exact ⟨hn, by rw [Invariant.len_pred_toNat hn]; omega⟩

/-- A latch after the rest of a burst: it is set now if this was the last byte, and by the rest otherwise. -/
theorem latch_of_rest {n : Len} {rest : List Byte} (latch : Bool) (h : rest.length = n.toNat) :
    ((latch || n == 0) || !rest.isEmpty) = true := by
  cases rest with
  | nil =>
    rw [List.length_nil] at h
    simp [len_eq_zero_iff.2 h.symm]
  | cons => simp

theorem latches_of_rest {n : Len} {rest : List Byte} {mosi miso : Byte} {hdr : Hdr5} {mem : Memory} (s : State)
    (h : rest.length = (n - 1).toNat) (ht : s.txch.cnt = n) (hr : s.rxch.cnt = n) :
    ((exchanged mosi miso hdr mem s).tctx || !rest.isEmpty) = true ∧
    ((exchanged mosi miso hdr mem s).tcrx || !rest.isEmpty) = true := by
  have htx : s.txch.next.cnt = n - 1 := congrArg (· - 1) ht
  have hrx : s.rxch.next.cnt = n - 1 := congrArg (· - 1) hr
  simp only [exchanged, htx, hrx, latch_of_rest _ h, and_self]

/-- Inside the address space the moving address is the next one, and past it nothing is left to exchange. -/
theorem nextAddr_of_rest {a : Addr} {n : Len} {rest : List Byte} (hn : rest.length = (n - 1).toNat) (hpos : 0 < n)
    (hfit : a.toNat + n.toNat ≤ 2 ^ 32) : rest = [] ∨ (nextAddr true a).toNat = a.toNat + 1 := by
  cases rest with
  | nil => exact .inl rfl
  | cons b rest =>
    rw [List.length_cons, Invariant.len_pred_toNat hpos] at hn
    exact .inr (nextAddr_toNat (show a.toNat + 1 < 2 ^ 32 by omega))

/-! ### Receive -/

/-- A receive burst with `n` bytes to go into the buffer at `a` (R173). -/
def Receiving (a : Addr) (n : Len) (s : State) : Prop :=
  s.cs = true ∧ s.txch = ⟨.dummy, 0, n, false, true⟩ ∧ s.rxch = ⟨.mem, a, n, true, true⟩

/-- One byte of a receive burst. -/
theorem exchange_receiving {a : Addr} {n : Len} {s : State} (b : Byte) (h : Receiving a n s) (hn : 0 < n) :
    exchange b s =
      .next (exchanged s.par.dummyTx b s.hdrRx (Memory.write s.mem a.toNat b) s) ∧ readsUnwritten s = false := by
  obtain ⟨hcs, ht, hr⟩ := h
  refine ⟨exchange_eq_next_iff.2 ⟨(exchangeEnabled_iff s).2 (by rw [hcs, ht, hr]; exact ⟨rfl, rfl, rfl, hn, hn⟩),
    _, _, _, ?_, ?_, rfl⟩, ?_⟩
  · simp [mosiByte?, ht]
  · exact .inr (.inr (by simp [hr]))
  · simp [readsUnwritten, ht]

theorem exchangeAll_receiving (bytes : List Byte) {a : Addr} {n : Len} {s : State} (h : Receiving a n s)
    (hlen : bytes.length = n.toNat) (hfit : a.toNat + n.toNat ≤ 2 ^ 32) :
    ∃ t, exchangeAll bytes s = .next t ∧ t.mem = storeFrom s.mem a.toNat bytes ∧
      t.trace = s.trace ++ bytes.map (fun b => .wire s.par.dummyTx b) ∧
      (t.tctx = (s.tctx || !bytes.isEmpty) ∧ t.tcrx = (s.tcrx || !bytes.isEmpty)) ∧
      (t.txch.cnt = 0 ∧ t.rxch.cnt = 0) ∧ t.hdrRx = s.hdrRx ∧ t.draws = s.draws := by
  induction bytes generalizing a n s with
  | nil =>
    obtain ⟨-, ht, hr⟩ := h
    have hzero : n = 0 := len_eq_zero_iff.2 hlen.symm
    exact ⟨s, rfl, by simp [storeFrom], by simp, by simp, by simp [ht, hr, hzero], rfl, rfl⟩
  | cons b rest ih =>
    obtain ⟨hn, hrest⟩ := rest_length hlen
    obtain ⟨hx, hdraws⟩ := exchange_receiving b h hn
    obtain ⟨hcs, ht, hr⟩ := h
    have hnext : Receiving (nextAddr true a) (n - 1)
        (exchanged s.par.dummyTx b s.hdrRx (Memory.write s.mem a.toNat b) s) :=
      ⟨hcs, by simp [exchanged, ht, TxChan.next], by simp [exchanged, hr, RxChan.next]⟩
    obtain ⟨t, hall, hmem, htrace, ⟨htctx, htcrx⟩, hcnt, hhdr, hdr⟩ :=
      ih hnext hrest (Invariant.nextAddr_fits rfl hn hfit)
    refine ⟨t, by rw [exchangeAll, hx]; exact hall, ?_, ?_, ?_, hcnt, hhdr, ?_⟩
    · rw [hmem]
      obtain rfl | haddr := nextAddr_of_rest hrest hn hfit
      · rfl
      · rw [haddr]
        rfl
    · rw [htrace]
      simp [exchanged]
    · obtain ⟨htx, hrx⟩ := latches_of_rest s hrest (by rw [ht]) (by rw [hr])
      exact ⟨by simpa using htctx.trans htx, by simpa using htcrx.trans hrx⟩
    · rw [hdr]
      simp [exchanged, hdraws]

/-- Settles O42: the burst runs by `exchangeAll_receiving`, and memory is the bytes stored in order. -/
theorem receiveBurstStoresTheBytesInOrder : Obligations.ReceiveBurstStoresTheBytesInOrder := by
  intro s p bytes n hcs hlen hpos hfit
  have harmed : Receiving p n (armPayloadRx p n s) := ⟨hcs, rfl, rfl⟩
  obtain ⟨t, hall, hmem, htrace, ⟨htctx, htcrx⟩, ⟨htn, hrn⟩, hhdr, hdraws⟩ :=
    exchangeAll_receiving bytes harmed hlen hfit
  have hne : bytes.isEmpty = false := by
    rw [List.isEmpty_eq_false_iff, ← List.length_pos_iff]
    omega
  refine ⟨t, hall, fun k hk => ?_, fun a ha => ?_, htrace, by simpa [hne] using htctx, by simpa [hne] using htcrx, htn,
    hrn, hhdr, hdraws⟩
  · rw [hmem, read?_storeFrom_inside]
  · rw [hmem, read?_storeFrom_outside _ _ _ (by omega)]
    rfl

/-! ### Transmit -/

/-- A transmit burst with `n` bytes to go from the buffer at `a` (R172). -/
def Sending (a : Addr) (n : Len) (s : State) : Prop :=
  s.cs = true ∧ s.txch = ⟨.mem, a, n, true, true⟩ ∧ s.rxch = ⟨.sink, 0, n, false, true⟩

/-- One byte of a transmit burst from written memory. -/
theorem exchange_sending {a : Addr} {n : Len} {s : State} {v : Byte} (b : Byte) (h : Sending a n s) (hn : 0 < n)
    (hv : Memory.read? s.mem a.toNat = some v) :
    exchange b s = .next (exchanged v b s.hdrRx s.mem s) ∧ readsUnwritten s = false := by
  obtain ⟨hcs, ht, hr⟩ := h
  refine ⟨exchange_eq_next_iff.2 ⟨(exchangeEnabled_iff s).2 (by rw [hcs, ht, hr]; exact ⟨rfl, rfl, rfl, hn, hn⟩),
    _, _, _, ?_, ?_, rfl⟩, ?_⟩
  · simp [mosiByte?, ht, memRead, hv]
  · exact .inr (.inl (by simp [hr]))
  · simp [readsUnwritten, ht, hv]

theorem exchangeAll_sending (payload back : List Byte) {a : Addr} {n : Len} {s : State} (h : Sending a n s)
    (hlen : payload.length = n.toNat) (hback : back.length = n.toNat) (hfit : a.toNat + n.toNat ≤ 2 ^ 32)
    (hread : ∀ k (hk : k < payload.length), Memory.read? s.mem (a.toNat + k) = some payload[k]) :
    ∃ t, exchangeAll back s = .next t ∧ t.trace = s.trace ++ (payload.zip back).map (fun x => .wire x.1 x.2) ∧
      (t.mem = s.mem ∧ t.hdrRx = s.hdrRx ∧ t.draws = s.draws) ∧
      (t.tctx = (s.tctx || !back.isEmpty) ∧ t.tcrx = (s.tcrx || !back.isEmpty)) ∧ t.txch.cnt = 0 ∧ t.rxch.cnt = 0 := by
  induction back generalizing a n s payload with
  | nil =>
    obtain ⟨-, ht, hr⟩ := h
    have hzero : n = 0 := len_eq_zero_iff.2 hback.symm
    exact ⟨s, rfl, by simp, ⟨rfl, rfl, rfl⟩, by simp, by simp [ht, hr, hzero]⟩
  | cons b rest ih =>
    obtain ⟨hn, hrest⟩ := rest_length hback
    cases payload with
    | nil => exact absurd hn (len_not_pos.2 (len_eq_zero_iff.2 hlen.symm))
    | cons v more =>
      obtain ⟨-, hmore⟩ := rest_length hlen
      obtain ⟨hx, hdraws⟩ := exchange_sending b h hn (hread 0 (Nat.succ_pos _))
      obtain ⟨hcs, ht, hr⟩ := h
      have hnext : Sending (nextAddr true a) (n - 1) (exchanged v b s.hdrRx s.mem s) :=
        ⟨hcs, by simp [exchanged, ht, TxChan.next], by simp [exchanged, hr, RxChan.next]⟩
      have hreads : ∀ k (hk : k < more.length), Memory.read? s.mem ((nextAddr true a).toNat + k) = some more[k] := by
        intro k hk
        obtain rfl | haddr := nextAddr_of_rest hmore hn hfit
        · nomatch hk
        · rw [haddr, add_assoc, add_comm 1 k]
          exact hread (k + 1) (Nat.succ_lt_succ hk)
      obtain ⟨t, hall, htrace, ⟨hmem, hhdr, hdr⟩, ⟨htctx, htcrx⟩, hcnt⟩ :=
        ih more hnext hmore hrest (Invariant.nextAddr_fits rfl hn hfit) hreads
      refine ⟨t, by rw [exchangeAll, hx]; exact hall, ?_, ⟨hmem, hhdr, ?_⟩, ?_, hcnt⟩
      · rw [htrace]
        simp [exchanged]
      · rw [hdr]
        simp [exchanged, hdraws]
      · obtain ⟨htx, hrx⟩ := latches_of_rest s hrest (by rw [ht]) (by rw [hr])
        exact ⟨by simpa using htctx.trans htx, by simpa using htcrx.trans hrx⟩

/-- Settles O43: the burst runs by `exchangeAll_sending`. -/
theorem transmitBurstSendsTheBytesInOrder : Obligations.TransmitBurstSendsTheBytesInOrder := by
  intro s p payload back n hcs hlen hback hpos hfit hread
  have harmed : Sending p n (armPayloadTx p n s) := ⟨hcs, rfl, rfl⟩
  obtain ⟨t, hall, htrace, ⟨hmem, hhdr, hdraws⟩, ⟨htctx, htcrx⟩, hcnt⟩ :=
    exchangeAll_sending payload back harmed hlen hback hfit hread
  have hne : back.isEmpty = false := by
    rw [List.isEmpty_eq_false_iff, ← List.length_pos_iff]
    omega
  exact ⟨t, hall, htrace, hmem, hhdr, hdraws, by simpa [hne] using htctx, by simpa [hne] using htcrx, hcnt⟩

end Sys2Proof.Proofs.PayloadBursts
end

section
/-! What each arm leaves unchanged, over all instructions (R21 to R40). -/

namespace Sys2Proof.Proofs.Frames
open Sys2Proof Sys2Proof.Machine Sys2Proof.Proofs.Exchange Sys2Proof.Proofs.Transition

/-- What `AfterClose` never writes (R246). -/
theorem afterClose_frame (c : State) :
    ((afterClose c).par = c.par ∧ (afterClose c).input = c.input ∧ (afterClose c).rdy = c.rdy) ∧
    ((afterClose c).inited = c.inited ∧ (afterClose c).mode = c.mode ∧ (afterClose c).toflag = c.toflag) ∧
    (afterClose c).hdrRx = c.hdrRx ∧ (afterClose c).mem = c.mem ∧ (afterClose c).rx = c.rx := by
  obtain ⟨-, he⟩ | ⟨-, -, he⟩ | ⟨-, -, he⟩ := afterClose_cases c <;> simp [he, startTx_eq]

/-- What a closing step never writes; RXDONE alone writes the receive context (R235, R237, R242). -/
theorem closing_frame {i : Instr} {s c : State} (hc : Closing i s c) :
    (c.par = s.par ∧ c.input = s.input ∧ c.rdy = s.rdy) ∧
    (c.inited = s.inited ∧ c.mode = s.mode ∧ c.toflag = s.toflag) ∧
    c.hdrRx = s.hdrRx ∧ c.mem = s.mem ∧ (i ≠ .rxdone → c.rx = s.rx) := by
  cases hc <;> simp [close_rx_eq, close_tx_eq]

/-- Only XCHG stores to memory. -/
theorem trans_mem {i : Instr} {s t : State} (ht : Trans i s t) (hi : ∀ miso, i ≠ .xchg miso) : t.mem = s.mem := by
  cases ht with
  | xchg => exact absurd rfl (hi _)
  | closing hc =>
    obtain ⟨-, -, -, hafter, -⟩ := afterClose_frame _
    obtain ⟨-, -, -, hclose, -⟩ := closing_frame hc
    exact hafter.trans hclose
  | _ => rfl

/-- Settles O48: XCHG stores at most one byte (`stored_read_other`), and no other arm writes memory (`trans_mem`). -/
theorem onlyXchgStoresToMemory : Obligations.OnlyXchgStoresToMemory := by
  intro i s t hx
  have ht := trans_of_exec hx
  refine ⟨trans_mem ht, fun a ha => ?_⟩
  by_cases hi : ∃ miso, i = .xchg miso
  · obtain ⟨miso, rfl⟩ := hi
    obtain ⟨-, _, _, _, -, hstored, rfl⟩ := exchange_eq_next_iff.1 hx
    exact stored_read_other hstored ha
  · rw [trans_mem ht fun miso he => hi ⟨miso, he⟩]

theorem movesBytes_of_headerWay {i : Instr} {d : Way} (hi : headerWay i = some d) : movesBytes i = true := by
  cases i <;> simp_all [headerWay, movesBytes]

/-- Settles O49: each arm's whole state, read field by field. -/
theorem fieldsChangeOnlyByTheirWriters : Obligations.FieldsChangeOnlyByTheirWriters := by
  intro i s t hx
  cases trans_of_exec hx with
  | @closing _ _ c hc =>
    have hafter := afterClose_frame c
    have hclose := closing_frame hc
    cases hc <;> simp_all
  | header r draws hi ha =>
    simp [headerDone, movesBytes_of_headerWay hi]
  | _ =>
    simp [loadsReset, movesBytes, toResetState, startTx_eq, startRx_eq, retry_eq, rxProgram_eq, txProgram_eq,
      payloadCompleteRxMore_eq, payloadCompleteTxMore_eq, exchanged]

end Sys2Proof.Proofs.Frames
end

section
/-! What happens at the close of a sequence, and between its opening and its close (R25, R246, R249). -/

namespace Sys2Proof.Proofs.Sequences
open Sys2Proof Sys2Proof.Machine Sys2Proof.Proofs.Bursts Sys2Proof.Proofs.Exchange Sys2Proof.Proofs.Transition
  Sys2Proof.Proofs.Invariant

/-! ### The closing steps -/

/-- The steps that close a sequence are the closing arms, and lead to `AfterClose`. -/
theorem closing_of_closes {i : Instr} {s t : State} (ht : Trans i s t) (hc : Closes i s) :
    ∃ c, Closing i s c ∧ t = afterClose c := by
  cases ht with
  | closing h => exact ⟨_, h, rfl⟩
  | rxAccept hph hcount =>
    have hcount := mt len_not_pos.2 (not_not.2 hcount)
    simp_all [Closes]
  | header _ _ hi => cases i <;> simp_all [Closes, headerWay]
  | rxdoneIgnored _ hph => obtain hph | hph | hph | hph := hph <;> simp_all [Closes]
  | txdoneIgnored _ hph => obtain hph | hph | hph | hph | hph | hph := hph <;> simp_all [Closes]
  | _ => simp_all [Closes]

/-- Any other step of an open sequence but RESET keeps the sequence open and in its direction, and, but for SEND, the
queued request. -/
theorem keeps_of_not_closes {i : Instr} {s t : State} (ht : Trans i s t) (hc : ¬Closes i s) (hbus : s.bus = .busy)
    (hi : i ≠ .reset) : t.bus = .busy ∧ t.dir = s.dir ∧ ((∀ b n, i ≠ .send b n) → t.pend = s.pend) := by
  cases ht with
  | reset => exact absurd rfl hi
  | closing h =>
    refine absurd ?_ hc
    cases h <;> simp_all [Closes]
  | init h | sendOpen _ _ _ h | rdyirqOpen _ _ h => cases hbus.symm.trans h
  | sendQueue => exact ⟨hbus, rfl, fun h => absurd rfl (h _ _)⟩
  | _ => exact ⟨hbus, rfl, fun _ => rfl⟩

/-- Settles O55: a closing step runs `AfterClose`, which starts the request (`afterClose_phaseInv`); no other step
touches it (`keeps_of_not_closes`). -/
theorem queuedSendStartsAtTheClose : Obligations.QueuedSendStartsAtTheClose := by
  intro i s t hs hpend hx hreset hsend
  obtain ⟨p, hp⟩ := exists_phaseInv hs
  have ht := trans_of_exec hx
  constructor
  · intro hc
    obtain ⟨c, hclosing, rfl⟩ := closing_of_closes ht hc
    have hopen : phaseDir p ≠ .none := hp.follows.pend hpend
    have hafter := afterClose_phaseInv hp hclosing hopen
    rw [if_pos hpend] at hafter
    obtain ⟨hq, -, -⟩ := closing_frame hclosing
    have hstart := Completions.afterClose_of_pending (hq ▸ hpend)
    refine ⟨phase_of_phaseInv hafter, ?_, ?_⟩
    · rw [hstart, startTx_eq]
    · rw [hstart, startTx_eq, hq]
  · intro hc
    obtain ⟨⟨-, -, hbusy, -⟩, -⟩ := hs
    obtain ⟨hbus, hdir, hkept⟩ := keeps_of_not_closes ht hc (hbusy hpend) hreset
    exact ⟨hkept hsend, hbus, hdir⟩

/-- Settles O56: only a closing step leaves the bus idle, and of the arms of `AfterClose` only the one that rebuilds the
latch leaves it idle with a buffer armed. -/
theorem closeRebuildsTheReadyLatch : Obligations.CloseRebuildsTheReadyLatch := by
  intro i s t hs hx hbusy havail hreset hvalid
  have ht := trans_of_exec hx
  by_cases hc : Closes i s
  · obtain ⟨c, -, rfl⟩ := closing_of_closes ht hc
    obtain ⟨-, he⟩ | ⟨-, -, he⟩ | ⟨-, hnone, he⟩ := afterClose_cases c <;> rw [he] at havail hvalid ⊢
    · cases havail
    · exact ⟨rfl, rfl⟩
    · cases hnone.symm.trans hvalid
  · obtain ⟨hbus, -⟩ := keeps_of_not_closes ht hc hbusy hreset
    cases hbus.symm.trans havail

/-! ### The end of a transmit message -/

theorem txEnd_of_txHdr {s : State} (h : PhaseInv .txHdr s) : txEnd s = some (s.tx.ptr.toNat + s.tx.rem.toNat) := by
  rw [txEnd, phase_of_phaseInv h]

/-- An accepted window splits what is left of the message into the burst and the rest. -/
theorem txEnd_txProgram {count : Len} {s : State} (h : PhaseInv .txHdr s) (hcount : 0 < count) :
    txEnd (txProgram count s) = txEnd s := by
  have hph := phase_of_phaseInv (txProgram_phaseInv h hcount)
  have hsum := txBurst_size_add_rem count s.tx.rem
  rw [txEnd_of_txHdr h, ← hsum, ← add_assoc, txEnd, hph]
  cases (txBurst count s.tx.rem).more <;> rfl

/-- The pointer moves on by the burst that the message has moved. -/
theorem txEnd_payloadCompleteTxMore {s : State} (h : PhaseInv .txPayMore s) :
    txEnd (payloadCompleteTxMore s) = txEnd s := by
  have hlt := Completions.tx_ptr_add_burst_lt (stateInv_of_phaseInv h) (phase_of_phaseInv h)
  rw [txEnd_of_txHdr (payloadCompleteTxMore_phaseInv h), payloadCompleteTxMore_eq, txEnd, phase_of_phaseInv h]
  exact congrArg (fun n => some (n + s.tx.rem.toNat)) (advanceAddr_toNat hlt)

/-- Settles O57: an accepted window and the end of a burst move the fields against each other, and no other arm of a
transmit sequence touches them. -/
theorem transmitMessageEndIsKept : Obligations.TransmitMessageEndIsKept := by
  intro i s t hs hx hdir hdir' hlast
  obtain ⟨p, h⟩ := exists_phaseInv hs
  have hd := h.follows.dir.symm.trans hdir
  cases trans_of_exec hx with
  | reset | init => cases hdir'
  | sendOpen _ _ _ hbus | rdyirqOpen _ _ hbus =>
    obtain rfl := phase_idle_of_available h hbus
    cases hd
  | evtreqContinue _ _ _ hrx => cases hdir.symm.trans hrx
  | rxAccept hph | rxRetry hph | rxMore _ hph =>
    obtain rfl := phase_eq_of_phaseInv h hph
    cases hd
  | txAccept hph hcount =>
    obtain rfl := phase_eq_of_phaseInv h hph
    exact txEnd_txProgram (clear_tcrx_phaseInv h) hcount
  | txMore hph =>
    obtain rfl := phase_eq_of_phaseInv h hph
    exact txEnd_payloadCompleteTxMore (clear_tctx_phaseInv h)
  | closing hc =>
    cases hc with
    | spurious hph | rxEnd hph =>
      obtain rfl := phase_eq_of_phaseInv h hph
      cases hd
    | txEnd hph => exact absurd ⟨rfl, hph⟩ hlast
  | _ => rfl

end Sys2Proof.Proofs.Sequences
end

section
/-! The two completion services of one burst, in either order (R289). -/

namespace Sys2Proof.Proofs.ServiceOrder
open Sys2Proof Sys2Proof.Machine Sys2Proof.Proofs.HostOperations Sys2Proof.Proofs.Completions
  Sys2Proof.Proofs.Invariant

theorem serveIfEnabled_of_next {i : Instr} {s t : State} (h : exec i s = .next t) : serveIfEnabled i s = some t := by
  rw [serveIfEnabled, h]

theorem serveIfEnabled_of_refused {i : Instr} {s : State} {r : Refusal} (h : exec i s = .refused r) :
    serveIfEnabled i s = some s := by
  rw [serveIfEnabled, h]

/-- Two services agree in either order where the one leaves the other nothing to do, and does the same after it. -/
theorem serveBoth_comm_of_absorbs {i j : Instr} {s u t : State} {r : Refusal} (hi : exec i s = .next t)
    (hskip : exec j t = .refused r) (hj : exec j s = .next u) (hij : exec i u = .next t) :
    serveBoth i j s = some t ∧ serveBoth j i s = some t := by
  simp only [serveBoth, serveIfEnabled_of_next hi, serveIfEnabled_of_next hj, Option.bind_some,
    serveIfEnabled_of_refused hskip, serveIfEnabled_of_next hij, and_self]

theorem exec_txdone_of_no_latch {s : State} (hinit : s.inited = true) (h : s.tctx = false) :
    exec .txdone s = .refused .notPending := by
  obtain ⟨-, hpend⟩ := servicesNeedTheirLatch s
  obtain ⟨-, htx, -⟩ := hpend hinit
  exact htx h

theorem exec_rxdone_of_no_latch {s : State} (hinit : s.inited = true) (h : s.tcrx = false) :
    exec .rxdone s = .refused .notPending := by
  obtain ⟨-, hpend⟩ := servicesNeedTheirLatch s
  obtain ⟨-, -, hrx, -⟩ := hpend hinit
  exact hrx h

/-! ### A service that ends its burst leaves neither latch (R170) -/

/-- The initialised bit and both completion latches after a service that ends a burst. -/
def BurstEnded (s t : State) : Prop := t.inited = s.inited ∧ t.tctx = false ∧ t.tcrx = false

theorem burstEnded_afterClose {s c : State} (h : BurstEnded s c) : BurstEnded s (afterClose c) := by
  obtain ⟨-, he⟩ | ⟨-, -, he⟩ | ⟨-, -, he⟩ := afterClose_cases c <;> rw [he]
  · rw [startTx_eq]
    exact ⟨h.1, rfl, rfl⟩
  · exact h
  · exact h

theorem burstEnded_headerCompleteRx (s : State) : BurstEnded s (headerCompleteRx s) := by
  obtain ⟨-, -, he⟩ | ⟨-, -, he⟩ | ⟨-, -, he⟩ := headerCompleteRx_cases s <;> rw [he]
  · exact ⟨rfl, rfl, rfl⟩
  · exact ⟨rfl, rfl, rfl⟩
  · rw [close_rx_eq]
    exact burstEnded_afterClose ⟨rfl, rfl, rfl⟩

theorem burstEnded_headerCompleteTx (s : State) : BurstEnded s (headerCompleteTx s) := by
  obtain ⟨-, -, he⟩ | ⟨-, he⟩ := headerCompleteTx_cases s <;> rw [he]
  · exact ⟨rfl, rfl, rfl⟩
  · exact ⟨rfl, rfl, rfl⟩

theorem burstEnded_payloadCompleteRxEnd (s : State) : BurstEnded s (payloadCompleteRxEnd s) := by
  rw [payloadCompleteRxEnd_eq, close_rx_eq]
  exact burstEnded_afterClose ⟨rfl, rfl, rfl⟩

theorem burstEnded_payloadCompleteTxEnd (s : State) : BurstEnded s (payloadCompleteTxEnd s) := by
  rw [payloadCompleteTxEnd_eq, close_tx_eq]
  exact burstEnded_afterClose ⟨rfl, rfl, rfl⟩

theorem headerCompleteRx_clear_tctx (s : State) : headerCompleteRx { s with tctx := false } = headerCompleteRx s := by
  simp only [headerCompleteRx, hdrParse, readyLevel]
  split <;> rfl

theorem headerCompleteTx_clear_tctx (s : State) : headerCompleteTx { s with tctx := false } = headerCompleteTx s := by
  simp only [headerCompleteTx, hdrParse, readyLevel]
  split <;> rfl

/-! ### The two orders, by phase -/

/-- RXDONE ends the burst, TXDONE only clears its latch. -/
theorem orders_agree_of_rxdone_ends {s : State} {f : State → State} (hinit : s.inited = true) (hrx : s.tcrx = true)
    (hrxdone : ∀ u : State, u.inited = true → u.tcrx = true → phase u = phase s →
      exec .rxdone u = .next (f { u with tcrx := false }))
    (htxdone : exec .txdone s = .next { s with tctx := false }) (hended : ∀ u, BurstEnded u (f u))
    (habsorb : ∀ u : State, f { u with tctx := false } = f u) :
    ∃ t, serveBoth .rxdone .txdone s = some t ∧ serveBoth .txdone .rxdone s = some t := by
  obtain ⟨hi, htc, -⟩ := hended { s with tcrx := false }
  have hafter := hrxdone { s with tctx := false } hinit hrx rfl
  exact ⟨_, serveBoth_comm_of_absorbs (hrxdone s hinit hrx rfl) (exec_txdone_of_no_latch (hi.trans hinit) htc) htxdone
    (hafter.trans (congrArg _ (habsorb { s with tcrx := false })))⟩

/-- TXDONE ends the burst, RXDONE only clears its latch. -/
theorem orders_agree_of_txdone_ends {s : State} {f : State → State} (hinit : s.inited = true) (htx : s.tctx = true)
    (htxdone : ∀ u : State, u.inited = true → u.tctx = true → phase u = phase s →
      exec .txdone u = .next (f { u with tctx := false }))
    (hrxdone : exec .rxdone s = .next { s with tcrx := false }) (hended : ∀ u, BurstEnded u (f u))
    (habsorb : ∀ u : State, f { u with tcrx := false } = f u) :
    ∃ t, serveBoth .rxdone .txdone s = some t ∧ serveBoth .txdone .rxdone s = some t := by
  obtain ⟨hi, -, hrc⟩ := hended { s with tctx := false }
  have hafter := htxdone { s with tcrx := false } hinit htx rfl
  exact ⟨_, (serveBoth_comm_of_absorbs (htxdone s hinit htx rfl) (exec_rxdone_of_no_latch (hi.trans hinit) hrc) hrxdone
    (hafter.trans (congrArg _ (habsorb { s with tctx := false })))).symm⟩

/-- In RX_PAY_MORE the one service moves on to RX_WAIT_BUF and the other clears its latch before or after it. -/
theorem orders_agree_of_rxPayMore {s : State} (hinit : s.inited = true) (htx : s.tctx = true) (hrx : s.tcrx = true)
    (hph : phase s = some .rxPayMore) :
    ∃ t, serveBoth .rxdone .txdone s = some t ∧ serveBoth .txdone .rxdone s = some t := by
  have hwait : phase (payloadCompleteRxMore { s with tcrx := false }) = some .rxWaitBuf := by
    obtain ⟨hbus, hdir, hev, -⟩ := (phase_eq_rxPayMore s).1 hph
    exact (phase_eq_rxWaitBuf _).2 ⟨hbus, hdir, hev, rfl⟩
  have hfirst := exec_rxdone_rxPayMore hinit hrx hph
  have hthen := exec_txdone_ignored (s := payloadCompleteRxMore { s with tcrx := false }) hinit htx
    (.inr (.inr (.inr (.inr (.inl hwait)))))
  have hfirst' := exec_txdone_ignored hinit htx (.inr (.inr (.inl hph)))
  have hthen' := exec_rxdone_rxPayMore (s := { s with tctx := false }) hinit hrx hph
  refine ⟨{ payloadCompleteRxMore { s with tcrx := false } with tctx := false }, ?_, ?_⟩
  · rw [serveBoth, serveIfEnabled_of_next hfirst]
    exact serveIfEnabled_of_next hthen
  · rw [serveBoth, serveIfEnabled_of_next hfirst']
    exact serveIfEnabled_of_next hthen'

/-- Settles O58, by phase: in every phase with both latches set one service ends the burst on both channels and the
other only clears its latch, or RX_PAY_MORE. -/
theorem completionOrderDoesNotMatter : Obligations.CompletionOrderDoesNotMatter := by
  intro s hs htx hrx
  obtain ⟨p, h⟩ := exists_phaseInv hs
  have hph := phase_of_phaseInv h
  suffices hboth : ∃ t, serveBoth .rxdone .txdone s = some t ∧ serveBoth .txdone .rxdone s = some t by
    obtain ⟨t, hrt, htr⟩ := hboth
    exact ⟨htr.trans hrt.symm, t, htr⟩
  cases p with
  | idle => cases htx.symm.trans (h.follows.quiet rfl).1
  | rxWaitBuf =>
    obtain ⟨-, -, -, hserved, -⟩ := h.clauses
    cases hserved.symm.trans hrx
  | txHdr =>
    have hinit := h.follows.inited nofun
    exact orders_agree_of_rxdone_ends hinit hrx
      (fun u hi hl hu => EventHandlers.exec_rxdone_of_txHdr hi hl (hu.trans hph))
      (exec_txdone_ignored hinit htx (.inl hph)) burstEnded_headerCompleteTx headerCompleteTx_clear_tctx
  | rxHdr =>
    have hinit := h.follows.inited nofun
    exact orders_agree_of_rxdone_ends hinit hrx
      (fun u hi hl hu => HostCommands.exec_rxdone_of_rxHdr hi hl (hu.trans hph))
      (exec_txdone_ignored hinit htx (.inr (.inl hph))) burstEnded_headerCompleteRx headerCompleteRx_clear_tctx
  | rxPayLast =>
    have hinit := h.follows.inited nofun
    exact orders_agree_of_rxdone_ends hinit hrx
      (fun u hi hl hu => exec_rxdone_rxPayLast hi hl (hu.trans hph))
      (exec_txdone_ignored hinit htx (.inr (.inr (.inr (.inl hph))))) burstEnded_payloadCompleteRxEnd (fun _ => rfl)
  | txPayMore =>
    have hinit := h.follows.inited nofun
    exact orders_agree_of_txdone_ends hinit htx
      (fun u hi hl hu => exec_txdone_txPayMore hi hl (hu.trans hph))
      (exec_rxdone_ignored hinit hrx (.inl hph)) (fun _ => ⟨rfl, rfl, rfl⟩) (fun _ => rfl)
  | txPayLast =>
    have hinit := h.follows.inited nofun
    exact orders_agree_of_txdone_ends hinit htx
      (fun u hi hl hu => exec_txdone_txPayLast hi hl (hu.trans hph))
      (exec_rxdone_ignored hinit hrx (.inr (.inl hph))) burstEnded_payloadCompleteTxEnd (fun _ => rfl)
  | rxPayMore => exact orders_agree_of_rxPayMore (h.follows.inited nofun) htx hrx hph

end Sys2Proof.Proofs.ServiceOrder
end

section
/-! MODE selects nothing: every operation commutes with changing it (R28, R201, D4). -/

namespace Sys2Proof.Proofs.ModeIndependence
open Sys2Proof Sys2Proof.Machine Sys2Proof.Proofs.HostOperations

/-- The state with another MODE. -/
def withMode (m : Byte) (s : State) : State := { s with mode := m }

/-- An operation that reads MODE nowhere and leaves it alone. -/
def IgnoresMode (f : State → Host.Outcome State Fault Refusal) : Prop :=
  ∀ (m : Byte) (s : State), f (withMode m s) = mapNext (withMode m) (f s)

/-! ### Procedures with a choice in them -/

theorem afterClose_withMode (m : Byte) (c : State) : afterClose (withMode m c) = withMode m (afterClose c) := by
  obtain ⟨hp, he⟩ | ⟨hp, hr, he⟩ | ⟨hp, hr, he⟩ := afterClose_cases c
  · rw [he, Completions.afterClose_of_pending (c := withMode m c) hp]
    rfl
  · rw [he, Completions.afterClose_of_armed (c := withMode m c) hp hr]
    rfl
  · rw [he, Completions.afterClose_of_nothing (c := withMode m c) hp hr]

theorem close_withMode (d : Way) (m : Byte) (s : State) : close d (withMode m s) = withMode m (close d s) := by
  cases d <;> rfl

theorem headerCompleteRx_withMode (m : Byte) (s : State) :
    headerCompleteRx (withMode m s) = withMode m (headerCompleteRx s) := by
  simp only [headerCompleteRx, hdrParse, readyLevel, withMode]
  split
  · rfl
  · rfl
  · exact afterClose_withMode m (close .rx s)

theorem headerCompleteTx_withMode (m : Byte) (s : State) :
    headerCompleteTx (withMode m s) = withMode m (headerCompleteTx s) := by
  simp only [headerCompleteTx, hdrParse, readyLevel, withMode]
  split <;> rfl

theorem payloadCompleteRxEnd_withMode (m : Byte) (s : State) :
    payloadCompleteRxEnd (withMode m s) = withMode m (payloadCompleteRxEnd s) := by
  rw [payloadCompleteRxEnd_eq, payloadCompleteRxEnd_eq, close_withMode, ← afterClose_withMode]
  rfl

theorem payloadCompleteTxEnd_withMode (m : Byte) (s : State) :
    payloadCompleteTxEnd (withMode m s) = withMode m (payloadCompleteTxEnd s) := by
  rw [payloadCompleteTxEnd_eq, payloadCompleteTxEnd_eq, close_withMode, ← afterClose_withMode]
  rfl

/-! ### Services -/

theorem enterService_ignoresMode {q : IrqSource} {h : State → Host.Outcome State Fault Refusal} (hh : IgnoresMode h) :
    IgnoresMode fun s => enterService q s h := by
  intro m s
  have hclear : irqClear q (withMode m s) = withMode m (irqClear q s) := by cases q <;> rfl
  have hpend : irqPending q (withMode m s) = irqPending q s := by cases q <;> rfl
  change enterService q (withMode m s) h = mapNext (withMode m) (enterService q s h)
  cases hi : s.inited with
  | false =>
    rw [enterService_of_not_inited hi, enterService_of_not_inited (s := withMode m s) hi]
    rfl
  | true =>
    cases hp : irqPending q s with
    | false =>
      rw [enterService_of_not_pending hi hp, enterService_of_not_pending (s := withMode m s) hi (hpend.trans hp)]
      rfl
    | true =>
      rw [enterService_of_pending hi hp, enterService_of_pending (s := withMode m s) hi (hpend.trans hp), hclear]
      exact hh m _

theorem bus_withMode (m : Byte) (s : State) : (withMode m s).bus = s.bus := rfl

theorem execRdyirq_ignoresMode : IgnoresMode execRdyirq :=
  enterService_ignoresMode fun m s => by
    simp only [bus_withMode]
    cases s.bus <;> rfl

theorem phase_withMode (m : Byte) (s : State) : phase (withMode m s) = phase s := rfl

theorem execRxdone_ignoresMode : IgnoresMode execRxdone :=
  enterService_ignoresMode fun m s => by
    simp only [phase_withMode, headerCompleteRx_withMode, headerCompleteTx_withMode, payloadCompleteRxEnd_withMode]
    split <;> rfl

theorem execTxdone_ignoresMode : IgnoresMode execTxdone :=
  enterService_ignoresMode fun m s => by
    simp only [phase_withMode, payloadCompleteTxEnd_withMode]
    split <;> rfl

theorem execTimeout_ignoresMode : IgnoresMode execTimeout :=
  enterService_ignoresMode (h := fun s => .next (emit .notifyTimeout { s with toflag := true })) fun _ _ => rfl

/-! ### Host commands, timer and line -/

theorem execSend_ignoresMode (p : Addr) (n : Len) : IgnoresMode (execSend p n) := by
  intro m s
  have hrefusal : hostRefusal p n (withMode m s) = hostRefusal p n s := rfl
  simp only [execSend, hrefusal, bus_withMode]
  cases hostRefusal p n s with
  | some r => rfl
  | none => cases s.bus <;> rfl

theorem execEvtreq_ignoresMode (p : Addr) (n : Len) : IgnoresMode (execEvtreq p n) := by
  intro m s
  have hrefusal : hostRefusal p n (withMode m s) = hostRefusal p n s := rfl
  simp only [execEvtreq, hrefusal]
  cases hostRefusal p n s with
  | some r => rfl
  | none =>
    change (if s.bus = .busy ∧ s.dir = .rx then if s.rxwait = false then _ else _ else _) = mapNext _
      (if s.bus = .busy ∧ s.dir = .rx then if s.rxwait = false then _ else _ else _)
    split
    · split <;> rfl
    · rfl

theorem execTmrexp_ignoresMode : IgnoresMode execTmrexp := by
  intro m s
  cases ha : s.tmrarm with
  | false =>
    rw [EventHandlers.execTmrexp_of_not_armed ha, EventHandlers.execTmrexp_of_not_armed (s := withMode m s) ha]
    rfl
  | true =>
    rw [EventHandlers.execTmrexp_of_armed ha, EventHandlers.execTmrexp_of_armed (s := withMode m s) ha]
    rfl

/-! ### Exchanges -/

theorem exchange_ignoresMode (miso : Byte) : IgnoresMode (exchange miso) := by
  intro m s
  have hen : exchangeEnabled (withMode m s) = exchangeEnabled s := rfl
  have hmosi : mosiByte? (withMode m s) = mosiByte? s := rfl
  have hstore : storeMiso? miso (withMode m s) = (storeMiso? miso s).map (withMode m) := by
    simp only [storeMiso?, withMode]
    cases s.rxch.sel with
    | hdr => cases Hdr5.set? s.hdrRx s.rxch.addr.toNat miso <;> rfl
    | sink => rfl
    | mem => rfl
  rw [exchange, exchange, hen, hmosi, hstore]
  cases exchangeEnabled s with
  | false => rfl
  | true => cases mosiByte? s <;> cases storeMiso? miso s <;> rfl

theorem exchangeAll_ignoresMode (bytes : List Byte) : IgnoresMode (exchangeAll bytes) := by
  induction bytes with
  | nil => exact fun _ _ => rfl
  | cons b rest ih =>
    intro m s
    rw [exchangeAll, exchangeAll, exchange_ignoresMode]
    cases exchange b s with
    | next t => exact ih m t
    | fault r => rfl
    | refused r => rfl

theorem headerExchange_ignoresMode (d : Way) (h : Hdr5) : IgnoresMode (headerExchange d h) := by
  intro m s
  have harmed : headerArmed d (withMode m s) = headerArmed d s := rfl
  rw [headerExchange, headerExchange, harmed]
  split
  · exact exchangeAll_ignoresMode _ m s
  · rfl

theorem headerCommand_ignoresMode (d : Way) (tmpl : Hdr5) : IgnoresMode (headerCommand d tmpl) := by
  intro m s
  rw [headerCommand, headerCommand]
  change (if tmpl = hdrTemplate s.par d then _ else _) = _
  split
  · exact headerExchange_ignoresMode d (drawResponse s) m { s with draws := s.draws + 5 }
  · rfl

/-- Every instruction but INIT and RESET. -/
theorem exec_ignoresMode {i : Instr} (hreset : i ≠ .reset) (hinit : ∀ n, i ≠ .init n) : IgnoresMode (exec i) := by
  cases i with
  | init mode => exact absurd rfl (hinit mode)
  | reset => exact absurd rfl hreset
  | send p n => exact execSend_ignoresMode p n
  | evtreq p n => exact execEvtreq_ignoresMode p n
  | rdyirq => exact execRdyirq_ignoresMode
  | txdone => exact execTxdone_ignoresMode
  | rxdone => exact execRxdone_ignoresMode
  | timeout => exact execTimeout_ignoresMode
  | xchg miso => exact exchange_ignoresMode miso
  | rdylvl level => exact fun _ _ => rfl
  | tmrexp => exact execTmrexp_ignoresMode
  | hdrRdRsp | hdrWrRsp => exact headerExchange_ignoresMode _ _
  | hdrRdCmd | hdrWrCmd => exact headerCommand_ignoresMode _ _

/-- Settles O59: INIT and RESET overwrite MODE, every other instruction commutes with changing it
(`exec_ignoresMode`). -/
theorem modeInfluencesNothing : Obligations.ModeInfluencesNothing := by
  intro i s m
  refine ⟨fun hreset hinit => exec_ignoresMode hreset hinit m s, ?_⟩
  rintro (rfl | ⟨n, rfl⟩)
  · exact (execReset_eq _).trans (execReset_eq s).symm
  · rfl

end Sys2Proof.Proofs.ModeIndependence
end
